-- ==== Sys2Proof/Word.lean ====
section
/-! DEFINITION. The words the part's frames and registers are made of. Quantities of the part's arithmetic are
natural numbers (spec/00_scope.md, Conventions: "All quantities in the arithmetic of the part are non-negative
integers"); bit vectors stand only for bytes, addresses, type values, tags and sets of flags. -/

namespace Sys2Proof

/-- One byte of a frame, a record or the flash. -/
abbrev Byte := BitVec 8

/-- An Ethernet address, first transmitted pair in the most significant byte. -/
abbrev Mac := BitVec 48

/-- The tag of a trunk frame (spec/12, section 12.1). -/
abbrev Tag := BitVec 16

/-- A luminaire line, 0 to 5 (R2). -/
abbrev LineId := Fin 6

/-- The index of a map entry, 0 to 239 (R1). -/
abbrev EntryId := Fin 240

/-- The clock's maximum, 4,294,967,295 (R38). -/
abbrev maxMinute : Nat := 4294967295

end Sys2Proof
end

