-- ==== Sys2Proof/Config.lean ====
section
/-! DEFINITION. What one implementation fixes and the spec leaves open: free values. Each is opaque, so a claim that
mentions one holds whatever it is. -/

namespace Sys2Proof

/-- The byte the part puts at position `k` of a field whose contents the spec does not state: the four time bytes of
an absent time field, the current-test bytes after an absent presence byte, the kind byte of an absent last verdict,
the unused argument bytes of a request the bridge itself makes, the unused tail of a capture's node answer
(log 11). A free value. -/
opaque Config.fillByte : Nat → Byte

/-- The byte a WRITE_TABLE answer carries as position when the request was refused before any record was examined
(IMAGE_BUSY or UNKNOWN_TABLE, R172 and section 12.3; log 12). A free value. -/
opaque Config.unexaminedPosition : Byte

/-- How many bytes the image area of the flash has beyond the largest image, which it must hold; the spec does not state
the size of the area, and an image whose stated length does not fit it is bad (R180; log 34). A free value. -/
opaque Config.imageSpareBytes : Nat

end Sys2Proof
end

