-- ==== Sys2Proof/Syntax.lean ====
section
/-! DEFINITION. The commands of the block: one constructor for each row of spec/opcode_table.json, in the table's
order. The rows of management requests and of table records carry no operand of their own: each performs the request
the Management Engine has in hand, whose parameters stand in State (R168, log 6). -/

namespace Sys2Proof

/-- A frame as it arrives on the trunk (R152). Whether its Ethernet check sequence agrees is given with it (log 25);
`payload` is the bytes after the type field. -/
structure TrunkFrame where
  fcsAgrees : Bool
  dest      : Mac
  source    : Mac
  etype     : BitVec 16
  payload   : List Byte
  deriving DecidableEq, Repr

/-- The commands of the block. -/
inductive Instr where
  /-- POWER_UP (R180): the strap reading (R151), whether the flash answers (R180), and for each line whether its mains
  sense input reads present when the load has ended (R132). -/
  | powerUp (straps : Byte) (flashAnswers : Bool) (mainsPresent : Vector Bool 6)
  /-- MINUTE_EVENT (R39). -/
  | minuteEvent
  /-- PASS_TIMER_EXPIRY (R73). -/
  | passTimerExpiry
  /-- WALK_ENTRY (R74). -/
  | walkEntry
  /-- ADMISSION (R79). -/
  | admission
  /-- POLL_DUE (R96) for one entry. -/
  | pollDue (entry : EntryId)
  /-- REMAINING_MINUTES_OUT (R100) for one entry. -/
  | remainingMinutesOut (entry : EntryId)
  /-- RECHARGE_END (R118) for one entry. -/
  | rechargeEnd (entry : EntryId)
  /-- BACKOFF_END (R95) for one entry. -/
  | backoffEnd (entry : EntryId)
  /-- HOLD_OFF_END (R129) of one line. -/
  | holdOffEnd (line : LineId)
  /-- MAINS_SENSE_CHANGE (R122): a line's mains sense input now reads present, or absent. -/
  | mainsSenseChange (line : LineId) (present : Bool)
  /-- DEBOUNCED_LOSS (R123) on one line. -/
  | debouncedLoss (line : LineId)
  /-- DEBOUNCED_RESTORE (R127) on one line. -/
  | debouncedRestore (line : LineId)
  /-- LINE_SUPPLY_FAULT (R146): the supply sense of a line reports the current limit. -/
  | lineSupplyFault (line : LineId)
  /-- SUPPLY_RETRY (R147): the supply retry timer of a line runs out. -/
  | supplyRetry (line : LineId)
  /-- SUPPLY_SENSE_READ (R147, R149): 50 ms after a line's supply came on its sense is read; `limit` is what it reports. -/
  | supplySenseRead (line : LineId) (limit : Bool)
  /-- REQUEST_SENT (R137): the last byte of the request on a line has gone. -/
  | requestSent (line : LineId)
  /-- LINE_ANSWER_RECEIVED (R134): these bytes were heard on a line. -/
  | lineAnswerReceived (line : LineId) (heard : List Byte)
  /-- REPLY_WINDOW_CLOSE (R137): the reply window of a line closes; `cutOff` says that an answer had begun whose check
  byte had not arrived (R188). -/
  | replyWindowClose (line : LineId) (cutOff : Bool)
  /-- GAP_END (R139): the 8 ms gap of a line ends. -/
  | gapEnd (line : LineId)
  /-- FRAME_ARRIVAL (R152). -/
  | frameArrival (frame : TrunkFrame)
  /-- FRAME_SENT (R155): the frame at the head of the transmit queue has been sent. -/
  | frameSent
  /-- NOTICE_BUILD (R185). -/
  | noticeBuild
  /-- BACKLOG_ANSWER_PLACE (R140) of one line. -/
  | backlogAnswerPlace (line : LineId)
  /-- LAMP_REQUEST_TAKE (R158). -/
  | lampRequestTake
  /-- MGMT_REQUEST_TAKE (R168). -/
  | mgmtRequestTake
  /-- MGMT_ANSWER_PLACE (R168). -/
  | mgmtAnswerPlace
  /-- READ_TABLE (R171): the read in hand is begun, or goes on by one record. -/
  | readTable
  /-- WRITE_TABLE (R172): the write in hand is checked and its walk begins. -/
  | writeTable
  /-- MAP_RECORD (R14): the next record of the write in hand, a MAP record, is taken or refused. -/
  | mapRecord
  /-- GROUP_RECORD (R24). -/
  | groupRecord
  /-- CALENDAR_RECORD (R44). -/
  | calendarRecord
  /-- BLACKOUT_INSERT (R48): the next record is a BLACKOUT record with classes. -/
  | blackoutInsert
  /-- BLACKOUT_REMOVE (R49): the next record is a BLACKOUT record with an empty class set. -/
  | blackoutRemove
  /-- CRITERIA_RECORD (R111). -/
  | criteriaRecord
  /-- POLICY_RECORD (R115). -/
  | policyRecord
  /-- LINE_RECORD (R145). -/
  | lineRecord
  /-- BRIDGE_RECORD (R173). -/
  | bridgeRecord
  /-- SET_CLOCK (R40, R174). -/
  | setClock
  /-- READ_STATUS (R174). -/
  | readStatus
  /-- SCHED_ON (R70). -/
  | schedOn
  /-- SCHED_OFF (R70, R71). -/
  | schedOff
  /-- CLEAR_FAULT (R117). -/
  | clearFault
  /-- SET_HOLD (R8). -/
  | setHold
  /-- CLEAR_HOLD (R8). -/
  | clearHold
  /-- CLEAR_TOUCHED (R9). -/
  | clearTouched
  /-- ARM_CAPTURE (R164). -/
  | armCapture
  /-- DISARM_CAPTURE (R164). -/
  | disarmCapture
  /-- LINE_ABORT (R148). -/
  | lineAbort
  /-- LINE_RESET (R149). -/
  | lineReset
  /-- BRIDGE_RESET (R176). -/
  | bridgeReset
  /-- SAVE_IMAGE (R177). -/
  | saveImage
  /-- CLEAR_EVENTS (R175). -/
  | clearEvents
  /-- IMAGE_SAVE_READ (R178). -/
  | imageSaveRead
  /-- FLASH_OP_DONE (R179): the flash reports the operation asked of it finished; on the read-back it gives `readBack`. -/
  | flashOpDone (readBack : List Byte)
  /-- FLASH_OP_TIMEOUT (R179): a flash erase or write was not reported within 5 seconds. -/
  | flashOpTimeout
  /-- TRUNK_LINK_CHANGE (R155): the trunk link goes up or down. -/
  | trunkLinkChange (up : Bool)
  deriving DecidableEq, Repr

end Sys2Proof
end

