-- ==== Sys2Proof/WellFormed.lean ====
section
/-! DEFINITION. Well-formedness of commands. Line numbers, entry indices and bytes are bounded by their types; what is
left to check is the length of what is heard on a line, since the row LINE_ANSWER_RECEIVED is about a COMPLETE line
answer (section 12.5: "It is 5 to 11 bytes in all"). The machine has a meaning for ill-formed commands too. -/

namespace Sys2Proof

/-- A complete line answer is 5 to 11 bytes in all (section 12.5). -/
def lineAnswerLengthOk (heard : List Byte) : Bool :=
  decide (5 ≤ heard.length) && decide (heard.length ≤ 11)

/-- The commands a sender may send. -/
def Instr.wellFormed (i : Instr) : Bool :=
  match i with
  | .lineAnswerReceived _ heard => lineAnswerLengthOk heard
  | _ => true

end Sys2Proof
end

