-- ==== Sys2Proof/Machine/State.lean ====
section
/-! DEFINITION. The state of the block: every table, queue, timer, mode and mark the spec gives it, as plain data, the
queue of waiting commands, and the state after power-up. Where a part of the state is present only in some mode (the
current test, the exchange in flight, a debounce timer), it is an argument of that mode's constructor, so the law
that ties the two (R10, R136, R121) holds by construction. -/

namespace Sys2Proof.Machine

/-! ### Names -/

/-- The kind of a test (section 12.6). -/
inductive Kind where
  | function | duration
  deriving DecidableEq, Repr

/-- Who moved the entry to PENDING (R12). -/
inductive Origin where
  | scheduler | headend
  deriving DecidableEq, Repr

/-- The verdict names of R13, in the order of section 12.6. -/
inductive Verdict where
  | pass | marginal | short | lamp | overrun | noVerdict | noContact | refused | abortedHeadend | abortedOutage
  deriving DecidableEq, Repr

/-- The block reasons of R13, in the order of section 12.6; `cleared` is the reason named NONE. -/
inductive BlockReason where
  | cleared | calendar | quota | lineLimit | controlFull | outage | lineDown | held | aborted
  deriving DecidableEq, Repr

/-- The fourteen sticky event flags, in the order of their bits (R181, section 12.6). -/
inductive EventFlag where
  | overdue | verdictFail | verdictMarginal | noContact | halted | outageStart | outageEnd | captureHit | lineFault
  | inboundDropped | imageSaved | imageFault | imageBad | clockNeeded
  deriving DecidableEq, Repr

/-- The eight line requests (R133), in the order of their codes. -/
inductive ReqName where
  | probe | readParam | identify | startFunction | startDuration | stopTest | setParam | setRest
  deriving DecidableEq, Repr

/-- The class of a line request (R133). -/
inductive ReqClass where
  | query | test | change
  deriving DecidableEq, Repr

/-- The answer codes of a LAMP answer (R162), in the order of section 12.6. -/
inductive LampCode where
  | ok | noAnswer | badAnswer | aborted | lineDown | cancelled | unknown | badRequest | barred | locked | busy | quota
  | activeLimit | lineFull
  deriving DecidableEq, Repr

/-- The answer codes of a MGMT answer (R169), in the order of section 12.6. -/
inductive MgmtCode where
  | ok | unknownTable | indexRange | badValue | duplicate | busy | tableFull | imageBusy
  deriving DecidableEq, Repr

/-- The eight tables (R170), in the order of section 12.6. -/
inductive Table where
  | map | group | calendar | blackout | criteria | policy | line | bridge
  deriving DecidableEq, Repr

/-- The kinds of trunk frame (section 12.1). -/
inductive FrameKind where
  | lampRequest | lampAnswer | mgmtRequest | mgmtAnswer | notice
  deriving DecidableEq, Repr

/-- The nine waiters for a transmit place (R156). -/
inductive Waiter where
  | lampPath | management | backlog (line : LineId) | eventUnit
  deriving DecidableEq, Repr

/-- The three clients of a line (R144): pass-through P, control C, poll L. -/
inductive Client where
  | passThrough | control | poll
  deriving DecidableEq, Repr

/-! ### The Luminaire Map and the tables -/

/-- The current-test record (R12). -/
structure CurrentTest where
  kind             : Kind
  origin           : Origin
  startedAt        : Option Nat
  remaining        : Nat
  missed           : Nat
  pollDue          : Nat
  stopRequested    : Bool
  startSent        : Bool
  remainingAtStart : Nat
  deriving DecidableEq, Repr

/-- The seven states of an entry with the optional part each carries (R10). -/
inductive EntryState where
  | ready
  | pending (test : CurrentTest)
  | testing (test : CurrentTest)
  | ending (test : CurrentTest)
  | recharging (left : Nat)
  | backoff (left : Nat)
  | faulted
  deriving DecidableEq, Repr

/-- One entry of the Luminaire Map (R1, R2, R6 to R10, R13). -/
structure Entry where
  inUse           : Bool
  cln             : Nat
  line            : LineId
  node            : Nat
  group           : Fin 32
  battery         : Fin 16
  rated           : Nat
  locked          : Bool
  barred          : Bool
  held            : Bool
  touched         : Bool
  state           : EntryState
  addedAt         : Option Nat
  lastFunctionEnd : Option Nat
  lastDurationEnd : Option Nat
  lastVerdict     : Option (Verdict × Kind)
  lastBlock       : Option BlockReason
  overdueFunction : Bool
  overdueDuration : Bool
  attempts        : Nat
  deriving DecidableEq, Repr

/-- The cleared values of a free entry (R1). -/
def Entry.free : Entry :=
  { inUse := false, cln := 0, line := 0, node := 0, group := 0, battery := 0, rated := 30, locked := false,
    barred := false, held := false, touched := false, state := .ready, addedAt := none, lastFunctionEnd := none,
    lastDurationEnd := none, lastVerdict := none, lastBlock := none, overdueFunction := false,
    overdueDuration := false, attempts := 0 }

/-- The eight settings of a group record (R23). The counts N, O and Q are computed from the map (log 9). -/
structure GroupSettings where
  quotaPercent      : Nat
  weight            : Nat
  occupancy         : Fin 8
  functionInterval  : Nat
  functionTolerance : Nat
  durationInterval  : Nat
  durationTolerance : Nat
  rechargeHours     : Nat
  deriving DecidableEq, Repr

/-- The defaults of R23. -/
def GroupSettings.default : GroupSettings :=
  { quotaPercent := 20, weight := 1, occupancy := 0, functionInterval := 30, functionTolerance := 7,
    durationInterval := 365, durationTolerance := 30, rechargeHours := 24 }

/-- One day row of the Test Calendar (R44) with its written mark (R45). Bit c of a mask stands for class c. -/
structure CalendarRow where
  masks   : Vector (BitVec 8) 48
  written : Bool
  deriving DecidableEq, Repr

/-- A row with every mask empty and not written (R46). -/
def CalendarRow.empty : CalendarRow := { masks := Vector.replicate 48 0, written := false }

/-- One blackout entry (R47). Bit c of `classes` stands for class c. -/
structure Blackout where
  start   : Nat
  stop    : Nat
  classes : BitVec 8
  deriving DecidableEq, Repr

/-- The outcome policy's default halt flags (R115), by index. -/
def policyDefault : Vector Bool 8 := #v[false, false, true, true, false, true, false, false]

/-- The three settings of a line (R145). -/
structure LineSettings where
  replyWindow : Nat
  attempts    : Nat
  pollPeriod  : Nat
  deriving DecidableEq, Repr

/-- The defaults of R145. -/
def LineSettings.default : LineSettings := { replyWindow := 30, attempts := 2, pollPeriod := 60 }

/-- The bridge settings record (R173). -/
structure BridgeSettings where
  schedulerEnable : Bool
  passInterval    : Nat
  grace           : Nat
  maxAttempts     : Nat
  backoffBase     : Nat
  debounce        : Nat
  holdOff         : Nat
  lightingType    : BitVec 16
  filterMode      : Fin 4
  reportAddress   : Mac
  notifyMask      : BitVec 14
  deriving DecidableEq, Repr

/-- The defaults of R173. -/
def BridgeSettings.default : BridgeSettings :=
  { schedulerEnable := false, passInterval := 5, grace := 15, maxAttempts := 4, backoffBase := 15, debounce := 5,
    holdOff := 60, lightingType := 0x8E2D, filterMode := 2, reportAddress := 0, notifyMask := 0 }

/-! ### The Scheduler and Mains Sense -/

/-- The pass state (R73, R74); a walk holds the index it reaches next. -/
inductive PassState where
  | idle
  | walking (next : EntryId)
  | admitting
  deriving DecidableEq, Repr

/-- One record of the plan list (R77). -/
structure PlanRecord where
  entry : EntryId
  kind  : Kind
  score : Nat
  deriving DecidableEq, Repr

/-- The sense state of a line (R121) with the debounce timer, in seconds, where one runs. -/
inductive SenseState where
  | present
  | lossPending (timer : Nat)
  | absent
  | restorePending (timer : Nat)
  deriving DecidableEq, Repr

/-- What Mains Sense holds for one line (R121, R126, R129). -/
structure MainsLine where
  sense         : SenseState
  outageMinutes : Nat
  holdOff       : Nat
  deriving DecidableEq, Repr

/-- A line's Mains Sense state at power-up (R132). -/
def MainsLine.initial : MainsLine := { sense := .present, outageMinutes := 0, holdOff := 0 }

/-! ### Trunk frames -/

/-- A lighting frame in a queue (section 12.1): the two addresses, the type, the header's kind, tag and bridge number,
and the body. -/
structure Frame where
  dest   : Mac
  source : Mac
  etype  : BitVec 16
  kind   : FrameKind
  tag    : Tag
  bridge : Byte
  body   : List Byte
  deriving DecidableEq, Repr

/-- The three argument bytes of a LAMP request (section 12.2). -/
structure Argument where
  b0 : Byte
  b1 : Byte
  b2 : Byte
  deriving DecidableEq, Repr

/-! ### Line work -/

/-- A head-end request on a pass-through queue (R161): the line request, and what its answer will need. `mark` is the
capture's mark when the capture record was opened for it (log 10). -/
structure PassRequest where
  name   : ReqName
  node   : Nat
  arg    : Argument
  entry  : EntryId
  cln    : Nat
  tag    : Tag
  source : Mac
  dest   : Mac
  mark   : Option Nat
  deriving DecidableEq, Repr

/-- The three requests a control queue holds (R142). -/
inductive ControlKind where
  | startFunction
  | startDuration (minutes : Nat)
  | stopTest
  deriving DecidableEq, Repr

/-- A request of bridge origin on a control queue (R142). -/
structure ControlRequest where
  kind  : ControlKind
  entry : EntryId
  node  : Nat
  mark  : Option Nat
  deriving DecidableEq, Repr

/-- A PROBE waiting with the poll client (R143). -/
structure PollRequest where
  entry : EntryId
  mark  : Option Nat
  deriving DecidableEq, Repr

/-- A granted request with the client that gave it (R136). -/
inductive Work where
  | passThrough (request : PassRequest)
  | control (request : ControlRequest)
  | poll (request : PollRequest)
  deriving DecidableEq, Repr

/-- The exchange in flight (R136): its request and client, the node it is addressed to, the bytes sent, the attempt
count fixed at the grant, the attempts begun, and whether any brought a bad answer. -/
structure Exchange where
  work    : Work
  node    : Nat
  bytes   : List Byte
  allowed : Nat
  made    : Nat
  badSeen : Bool
  deriving DecidableEq, Repr

/-- The engine state (R136). The exchange in flight exists only in SENDING and AWAITING; AWAITING holds the length of
its reply window in milliseconds (R137). -/
inductive Engine where
  | idle
  | sending (exchange : Exchange)
  | awaiting (exchange : Exchange) (window : Nat)
  | holding
  | gap
  | down
  deriving DecidableEq, Repr

/-- One Line Engine (spec/08). `polls` is kept in order of map index. `retryTimer` is the supply retry timer in
seconds, present while the supply is off; `senseDue` says that the supply sense is to be read 50 ms after the supply
came on (R147, R149). -/
structure LineEngine where
  engine         : Engine
  pass           : List PassRequest
  control        : List ControlRequest
  polls          : List PollRequest
  pointer        : Client
  backlog        : List Frame
  exchangeNumber : Byte
  supplyOn       : Bool
  retryTimer     : Option Nat
  senseDue       : Bool
  settings       : LineSettings
  deriving DecidableEq, Repr

/-- A Line Engine at power-up (R136, R144, R135). -/
def LineEngine.initial : LineEngine :=
  { engine := .idle, pass := [], control := [], polls := [], pointer := .poll, backlog := [], exchangeNumber := 0,
    supplyOn := true, retryTimer := none, senseDue := false, settings := .default }

/-! ### The Capture Unit -/

/-- The capture mode (R163). -/
inductive CaptureMode where
  | off | any | change | test
  deriving DecidableEq, Repr

/-- The capture action (R163). -/
inductive CaptureAction where
  | record | recordHold
  deriving DecidableEq, Repr

/-- The origin a capture record shows (R163). -/
inductive CaptureOrigin where
  | headend | bridge
  deriving DecidableEq, Repr

/-- What a completed capture records as answer (R166, R167): the node's answer (its form byte and fields), an outcome
name, or WITHDRAWN. -/
inductive CaptureAnswer where
  | node (bytes : List Byte)
  | outcome (code : LampCode)
  | withdrawn
  deriving DecidableEq, Repr

/-- The capture record (R163). -/
structure CaptureRecord where
  origin : CaptureOrigin
  name   : ReqName
  arg    : Argument
  line   : LineId
  node   : Nat
  clock  : Option Nat
  answer : Option CaptureAnswer
  deriving DecidableEq, Repr

/-- The capture state with its record (R163); OPEN holds the mark of the recorded request (log 10). -/
inductive CaptureState where
  | idle (record : Option CaptureRecord)
  | watching
  | opened (record : CaptureRecord) (mark : Nat)
  deriving DecidableEq, Repr

/-- The Capture Unit (R163). `nextMark` numbers the records it opens (log 10). -/
structure Capture where
  target   : Nat
  mode     : CaptureMode
  action   : CaptureAction
  state    : CaptureState
  nextMark : Nat
  deriving DecidableEq, Repr

/-- The Capture Unit at power-up and after BRIDGE_RESET (R163). -/
def Capture.initial : Capture :=
  { target := 1, mode := .off, action := .record, state := .idle none, nextMark := 0 }

/-! ### Management requests -/

/-- A MAP write record (R14, section 12.4). -/
structure MapRecord where
  index           : Nat
  identity        : Bool
  membership      : Bool
  ratings         : Bool
  flags           : Bool
  history         : Bool
  inUse           : Bool
  cln             : Nat
  line            : Nat
  node            : Nat
  group           : Nat
  battery         : Nat
  rated           : Nat
  locked          : Bool
  barred          : Bool
  held            : Bool
  addedAt         : Option Nat
  lastFunctionEnd : Option Nat
  lastDurationEnd : Option Nat
  deriving DecidableEq, Repr

/-- A GROUP write record (R24). -/
structure GroupRecord where
  index             : Nat
  quotaPercent      : Nat
  weight            : Nat
  occupancy         : Nat
  functionInterval  : Nat
  functionTolerance : Nat
  durationInterval  : Nat
  durationTolerance : Nat
  rechargeHours     : Nat
  deriving DecidableEq, Repr

/-- A CALENDAR write record (R44). -/
structure CalendarRecord where
  row   : Nat
  masks : Vector (BitVec 8) 48
  deriving DecidableEq, Repr

/-- A LINE write record (R145). -/
structure LineRecord where
  line        : Nat
  replyWindow : Nat
  attempts    : Nat
  pollPeriod  : Nat
  deriving DecidableEq, Repr

/-- A BRIDGE write record (R173). -/
structure BridgeRecord where
  index           : Nat
  schedulerEnable : Bool
  passInterval    : Nat
  grace           : Nat
  maxAttempts     : Nat
  backoffBase     : Nat
  debounce        : Nat
  holdOff         : Nat
  lightingType    : BitVec 16
  filterMode      : Nat
  reportAddress   : Mac
  notifyMask      : BitVec 14
  deriving DecidableEq, Repr

/-- One record of a WRITE_TABLE request (R172). -/
inductive TableRecord where
  | map (record : MapRecord)
  | group (record : GroupRecord)
  | calendar (record : CalendarRecord)
  | blackout (record : Blackout)
  | criteria (battery millivolts : Nat)
  | policy (index : Nat) (halt : Bool)
  | line (record : LineRecord)
  | bridge (record : BridgeRecord)
  deriving DecidableEq, Repr

/-- A management request with its parameters (R169, section 12.3). Table names, entry indices and lines stand as they
were sent. -/
inductive MgmtRequest where
  | readTable (table : Byte) (first count : Nat)
  | writeTable (table : Byte) (records : List TableRecord)
  | setClock (minute : Nat)
  | readStatus (take : Bool)
  | schedOn
  | schedOff
  | clearFault (entry : Nat)
  | setHold (entry : Nat)
  | clearHold (entry : Nat)
  | clearTouched (entry : Nat)
  | armCapture (target : Nat) (mode action : Byte)
  | disarmCapture
  | lineAbort (line : Nat)
  | lineReset (line : Nat)
  | bridgeReset
  | saveImage
  | clearEvents (set : BitVec 14)
  deriving DecidableEq, Repr

/-- Whom a management answer goes to: the request's source address and its tag (R157). -/
structure Requester where
  address : Mac
  tag     : Tag
  deriving DecidableEq, Repr

/-- What the Management Engine has in hand while WORKING (R168): a request not yet performed, a READ_TABLE that has
some of its records (R171), or a WRITE_TABLE some of whose records are taken (R172). -/
inductive MgmtJob where
  | request (request : MgmtRequest)
  | reading (table : Table) (next left : Nat) (got : List (List Byte))
  | writing (table : Table) (rest : List TableRecord) (taken : Nat)
  deriving DecidableEq, Repr

/-- The Management Engine (R168). -/
inductive MgmtState where
  | idle
  | working (who : Requester) (job : MgmtJob)
  | answering (answer : Frame)
  deriving DecidableEq, Repr

/-! ### The Image Store -/

/-- What a save reads as one version (R178), in the order of R178. -/
inductive SaveItem where
  | bridge
  | line
  | policy
  | criteria
  | group
  | calendar (row : Fin 7)
  | blackout
  | map (entry : EntryId)
  deriving DecidableEq, Repr

/-- How far an image save has come (R178, R179): the flash operation asked and not yet reported (erase, header, an
item's bytes with the item that follows, the CRC, the read-back), or the item to be read next. -/
inductive SavePhase where
  | erasing
  | header
  | reading (item : SaveItem)
  | writing (bytes : List Byte) (next : Option SaveItem)
  | crc (bytes : List Byte)
  | readBack (crc : List Byte)
  deriving DecidableEq, Repr

/-! ### The state -/

/-- No command of this block ends in a fault: the spec names no behaviour that stops the part (INVENTORY.md, Faults).
Raised by nobody. -/
inductive Fault where
  deriving DecidableEq, Repr

/-- Why a command is refused. -/
inductive Refusal where
  /-- Raised by an arm of exec whose command has no meaning yet. Safe: nothing can be proved of such a step. -/
  | notModelled (mnemonic : String)
  deriving DecidableEq, Repr

/-- The state of the block. -/
structure State where
  /-- The strap number, which is also the bridge number (R151). -/
  strap          : Byte
  /-- Whether the trunk port is open (R151). -/
  portOpen       : Bool
  /-- Whether the trunk link is up (R155). -/
  linkUp         : Bool
  /-- The receive queue, oldest first (R154). -/
  rx             : List Frame
  /-- The transmit queue, oldest first (R155). -/
  tx             : List Frame
  /-- The transmit rotation pointer: the waiter last granted (R156). -/
  rotation       : Waiter
  /-- Whether the Lamp Path waits for a transmit place with the oldest LAMP request (R158). -/
  lampWaiting    : Bool
  /-- The Capture Unit (R163). -/
  capture        : Capture
  /-- The Management Engine (R168). -/
  mgmt           : MgmtState
  /-- The progress of an image save; present while the image is busy (R177). -/
  save           : Option SavePhase
  /-- The contents of the image area of the serial flash from its start; erased beyond (R179, log 14). -/
  flash          : List Byte
  /-- The Luminaire Map (R1). -/
  entries        : Vector Entry 240
  /-- The Route Group Table (R23). -/
  groups         : Vector GroupSettings 32
  /-- The Campus Clock's minute count (R38). -/
  minute         : Nat
  /-- The clock-valid flag (R38). -/
  clockValid     : Bool
  /-- The seconds phase (R38). -/
  seconds        : Nat
  /-- The seven day rows (R44). -/
  rows           : Vector CalendarRow 7
  /-- The blackout list (R47). -/
  blackouts      : List Blackout
  /-- The pass timer (R72). -/
  passTimer      : Nat
  /-- The pass state (R73). -/
  passState      : PassState
  /-- The plan list (R77). -/
  plan           : List PlanRecord
  /-- The battery criteria table (R111). -/
  criteria       : Vector Nat 16
  /-- The outcome policy table's halt flags (R115). -/
  policy         : Vector Bool 8
  /-- Mains Sense, by line (R121). -/
  mains          : Vector MainsLine 6
  /-- The Line Engines (R136). -/
  lines          : Vector LineEngine 6
  /-- The bridge settings record (R173). -/
  settings       : BridgeSettings
  /-- The sticky event flags, by bit (R181). -/
  flags          : BitVec 14
  /-- The notice-pending mark (R184). -/
  noticePending  : Bool
  /-- The notice-owed mark (R184). -/
  noticeOwed     : Bool
  /-- The notice number (R185). -/
  noticeNumber   : BitVec 16
  /-- The commands waiting, oldest first. -/
  pending        : List Instr
  deriving DecidableEq, Repr

/-- The block right after a power-up that found a blank flash (log 8): the bad-image values of every table, CLOCK_NEEDED
and IMAGE_BAD set (R182), the port open (R180). The straps, the flash, the mains inputs and the link are inputs; the
strap number 1, mains present on every line and the link up are the model's choice (log 8). -/
def State.reset : State :=
  { strap := 1, portOpen := true, linkUp := true, rx := [], tx := [], rotation := .lampPath, lampWaiting := false,
    capture := .initial, mgmt := .idle, save := none, flash := [], entries := Vector.replicate 240 .free,
    groups := Vector.replicate 32 .default, minute := 0, clockValid := false, seconds := 0,
    rows := Vector.replicate 7 .empty, blackouts := [], passTimer := 0, passState := .idle, plan := [],
    criteria := Vector.replicate 16 0, policy := policyDefault, mains := Vector.replicate 6 .initial,
    lines := Vector.replicate 6 .initial, settings := .default, flags := 0x3000, noticePending := false,
    noticeOwed := false, noticeNumber := 0, pending := [] }

end Sys2Proof.Machine
end

