-- ==== Sys2Proof/Machine/Wire.lean ====
section
/-! DEFINITION. Byte order, check values and code tables (spec/12): every multi-byte field is sent most significant
byte first; the CRC-8 of line frames (R134) and the CRC-32 of the image (R179); the codes of section 12.6. -/

namespace Sys2Proof.Machine

/-! ### Bytes -/

/-- The low byte of a number. -/
def byteOf (n : Nat) : Byte := BitVec.ofNat 8 n

/-- `n` in `k` bytes, most significant byte first (spec/12). -/
def beBytes : Nat → Nat → List Byte
  | 0, _ => []
  | k + 1, n => byteOf (n / 256 ^ k) :: beBytes k n

/-- The number a list of bytes spells, most significant byte first. -/
def beNat (bs : List Byte) : Nat := bs.foldl (fun a b => a * 256 + b.toNat) 0

/-- The byte at an offset of a body or record. -/
def byteAt (bs : List Byte) (off : Nat) : Byte := bs.getD off 0

/-- The number in `len` bytes at an offset. -/
def natAt (bs : List Byte) (off len : Nat) : Nat := beNat ((bs.drop off).take len)

/-- A yes/no field as sent: one byte, 0 for no and 1 for yes (spec/12). -/
def boolByte (b : Bool) : Byte := if b then 1 else 0

/-- A yes/no field from the head-end: any value but 0 is read as yes (spec/12). -/
def yesAt (bs : List Byte) (off : Nat) : Bool := byteAt bs off != 0

/-- `len` filler bytes of an absent field, from position `at_` on (log 11). -/
def filler (at_ len : Nat) : List Byte := (List.range len).map fun k => Config.fillByte (at_ + k)

/-- A time field that may be absent: a presence byte and four bytes of campus minutes (spec/12). -/
def timeField : Option Nat → List Byte
  | none => 0 :: filler 1 4
  | some m => 1 :: beBytes 4 m

/-- A time field as read from a frame or record. -/
def timeAt (bs : List Byte) (off : Nat) : Option Nat :=
  if yesAt bs off then some (natAt bs (off + 1) 4) else none

/-! ### Check values -/

/-- One bit of the CRC-8: generator x^8 + x^5 + x^4 + 1, most significant bit first (R134). -/
def crc8Bit (r : Byte) : Byte := if r.msb then (r <<< 1) ^^^ 0x31 else r <<< 1

/-- One byte of the CRC-8. -/
def crc8Byte (r b : Byte) : Byte :=
  crc8Bit (crc8Bit (crc8Bit (crc8Bit (crc8Bit (crc8Bit (crc8Bit (crc8Bit (r ^^^ b))))))))

/-- The CRC-8 of a line frame from its node byte to the last byte before the check byte; the register starts at 0xFF
(R134). -/
def crc8 (bs : List Byte) : Byte := bs.foldl crc8Byte 0xFF

/-- One bit of the CRC-32, least significant bit first; 0xEDB88320 is R179's generator read that way. -/
def crc32Bit (r : BitVec 32) : BitVec 32 := if r.getLsbD 0 then (r >>> 1) ^^^ 0xEDB88320 else r >>> 1

/-- One byte of the CRC-32. -/
def crc32Byte (r : BitVec 32) (b : Byte) : BitVec 32 :=
  crc32Bit (crc32Bit (crc32Bit (crc32Bit (crc32Bit (crc32Bit (crc32Bit (crc32Bit (r ^^^ b.setWidth 32))))))))

/-- The CRC-32 of the image: the register starts at 0xFFFFFFFF and is inverted at the end (R179). -/
def crc32 (bs : List Byte) : BitVec 32 := ~~~ (bs.foldl crc32Byte 0xFFFFFFFF)

/-! ### Codes (section 12.6) -/

def Kind.code : Kind → Nat
  | .function => 1
  | .duration => 2

def Kind.ofCode : Nat → Option Kind
  | 1 => some .function
  | 2 => some .duration
  | _ => none

def Origin.code : Origin → Nat
  | .scheduler => 1
  | .headend => 2

def Verdict.code : Verdict → Nat
  | .pass => 1
  | .marginal => 2
  | .short => 3
  | .lamp => 4
  | .overrun => 5
  | .noVerdict => 6
  | .noContact => 7
  | .refused => 8
  | .abortedHeadend => 9
  | .abortedOutage => 10

def Verdict.ofCode : Nat → Option Verdict
  | 1 => some .pass
  | 2 => some .marginal
  | 3 => some .short
  | 4 => some .lamp
  | 5 => some .overrun
  | 6 => some .noVerdict
  | 7 => some .noContact
  | 8 => some .refused
  | 9 => some .abortedHeadend
  | 10 => some .abortedOutage
  | _ => none

def BlockReason.code : BlockReason → Nat
  | .cleared => 1
  | .calendar => 2
  | .quota => 3
  | .lineLimit => 4
  | .controlFull => 5
  | .outage => 6
  | .lineDown => 7
  | .held => 8
  | .aborted => 9

def BlockReason.ofCode : Nat → Option BlockReason
  | 1 => some .cleared
  | 2 => some .calendar
  | 3 => some .quota
  | 4 => some .lineLimit
  | 5 => some .controlFull
  | 6 => some .outage
  | 7 => some .lineDown
  | 8 => some .held
  | 9 => some .aborted
  | _ => none

def EntryState.code : EntryState → Nat
  | .ready => 0
  | .pending _ => 1
  | .testing _ => 2
  | .ending _ => 3
  | .recharging _ => 4
  | .backoff _ => 5
  | .faulted => 6

def ReqName.code : ReqName → Nat
  | .probe => 1
  | .readParam => 2
  | .identify => 3
  | .startFunction => 4
  | .startDuration => 5
  | .stopTest => 6
  | .setParam => 7
  | .setRest => 8

def ReqName.ofCode : Nat → Option ReqName
  | 1 => some .probe
  | 2 => some .readParam
  | 3 => some .identify
  | 4 => some .startFunction
  | 5 => some .startDuration
  | 6 => some .stopTest
  | 7 => some .setParam
  | 8 => some .setRest
  | _ => none

/-- The class of each line request (R133). -/
def ReqName.cls : ReqName → ReqClass
  | .probe | .readParam | .identify => .query
  | .startFunction | .startDuration | .stopTest => .test
  | .setParam | .setRest => .change

def LampCode.code : LampCode → Nat
  | .ok => 0
  | .noAnswer => 1
  | .badAnswer => 2
  | .aborted => 3
  | .lineDown => 4
  | .cancelled => 5
  | .unknown => 6
  | .badRequest => 7
  | .barred => 8
  | .locked => 9
  | .busy => 10
  | .quota => 11
  | .activeLimit => 12
  | .lineFull => 13

def MgmtCode.code : MgmtCode → Nat
  | .ok => 0
  | .unknownTable => 1
  | .indexRange => 2
  | .badValue => 3
  | .duplicate => 4
  | .busy => 5
  | .tableFull => 6
  | .imageBusy => 7

def Table.code : Table → Nat
  | .map => 1
  | .group => 2
  | .calendar => 3
  | .blackout => 4
  | .criteria => 5
  | .policy => 6
  | .line => 7
  | .bridge => 8

def Table.ofCode : Nat → Option Table
  | 1 => some .map
  | 2 => some .group
  | 3 => some .calendar
  | 4 => some .blackout
  | 5 => some .criteria
  | 6 => some .policy
  | 7 => some .line
  | 8 => some .bridge
  | _ => none

def FrameKind.code : FrameKind → Nat
  | .lampRequest => 1
  | .lampAnswer => 2
  | .mgmtRequest => 3
  | .mgmtAnswer => 4
  | .notice => 5

def Engine.code : Engine → Nat
  | .idle => 0
  | .sending _ => 1
  | .awaiting _ _ => 2
  | .holding => 3
  | .gap => 4
  | .down => 5

def PassState.code : PassState → Nat
  | .idle => 0
  | .walking _ => 1
  | .admitting => 2

def CaptureState.code : CaptureState → Nat
  | .idle _ => 0
  | .watching => 1
  | .opened _ _ => 2

def CaptureMode.code : CaptureMode → Nat
  | .off => 0
  | .any => 1
  | .change => 2
  | .test => 3

/-- The mode code of ARM_CAPTURE; OFF and unknown codes are answered BAD_VALUE there (R164). -/
def CaptureMode.ofCode : Nat → Option CaptureMode
  | 0 => some .off
  | 1 => some .any
  | 2 => some .change
  | 3 => some .test
  | _ => none

def CaptureAction.code : CaptureAction → Nat
  | .record => 0
  | .recordHold => 1

def CaptureAction.ofCode : Nat → Option CaptureAction
  | 0 => some .record
  | 1 => some .recordHold
  | _ => none

def CaptureOrigin.code : CaptureOrigin → Nat
  | .headend => 1
  | .bridge => 2

/-- The answer code a capture block shows (section 12.3): the LAMP answer code, 0 for a node answer, 14 for WITHDRAWN,
255 while OPEN. -/
def captureAnswerCode : Option CaptureAnswer → Nat
  | none => 255
  | some (.node _) => 0
  | some (.outcome c) => c.code
  | some .withdrawn => 14

/-! ### The trunk header (section 12.1) -/

/-- A frame's bytes after the type field: version 1, kind, tag, bridge number, the exact body length, the body (R187). -/
def Frame.payload (f : Frame) : List Byte :=
  1 :: byteOf f.kind.code :: (beBytes 2 f.tag.toNat ++ f.bridge :: (beBytes 2 f.body.length ++ f.body))

end Sys2Proof.Machine
end

