-- ==== Sys2Proof/Machine/Ops.lean ====
section
/-! DEFINITION. The named operations over the tables: reading and writing an entry or a line, the derived counts, the
two translations, the line conditions, and the record accessors every meaning uses. -/

namespace Sys2Proof.Machine

/-! ### Entries and lines -/

/-- Every entry index in order (R74, R143: index order). -/
def allEntries : List EntryId := List.finRange 240

/-- Every line in order. -/
def allLines : List LineId := List.finRange 6

/-- The entry at an index. -/
def State.entry (s : State) (i : EntryId) : Entry := s.entries[i]

/-- Replace the entry at an index. -/
def State.setEntry (s : State) (i : EntryId) (e : Entry) : State := { s with entries := s.entries.set i e }

/-- Move an entry to a state; the optional parts go with it (R10). -/
def State.setEntryState (s : State) (i : EntryId) (st : EntryState) : State :=
  s.setEntry i { s.entry i with state := st }

/-- Write an entry's last block reason (R13). -/
def State.setBlock (s : State) (i : EntryId) (r : BlockReason) : State :=
  s.setEntry i { s.entry i with lastBlock := some r }

/-- The Line Engine of a line. -/
def State.line (s : State) (n : LineId) : LineEngine := s.lines[n]

/-- Replace the Line Engine of a line. -/
def State.setLine (s : State) (n : LineId) (l : LineEngine) : State := { s with lines := s.lines.set n l }

/-- The Mains Sense state of a line. -/
def State.mainsLine (s : State) (n : LineId) : MainsLine := s.mains[n]

/-- Replace the Mains Sense state of a line. -/
def State.setMains (s : State) (n : LineId) (m : MainsLine) : State := { s with mains := s.mains.set n m }

/-- The group record of a group. -/
def State.group (s : State) (g : Fin 32) : GroupSettings := s.groups[g]

/-- The group record of an entry's group, as the entry's group field stands (R2). -/
def State.groupOf (s : State) (e : Entry) : GroupSettings := s.group e.group

/-- Act on every entry in index order. -/
def forEntries (f : EntryId → State → State) (s : State) : State := allEntries.foldl (fun t i => f i t) s

/-- Act on every line in order. -/
def forLines (f : LineId → State → State) (s : State) : State := allLines.foldl (fun t n => f n t) s

/-! ### Entry states -/

/-- PENDING, TESTING or ENDING: a test is under way (R11). -/
def EntryState.underTest : EntryState → Bool
  | .pending _ | .testing _ | .ending _ => true
  | _ => false

/-- PENDING, TESTING, ENDING or RECHARGING (R10). -/
def EntryState.outOfService : EntryState → Bool
  | .pending _ | .testing _ | .ending _ | .recharging _ => true
  | _ => false

/-- The current-test record, where there is one (R12). -/
def EntryState.test : EntryState → Option CurrentTest
  | .pending t | .testing t | .ending t => some t
  | _ => none

/-- Whether the state is RECHARGING. -/
def EntryState.isRecharging : EntryState → Bool
  | .recharging _ => true
  | _ => false

/-- Whether the state is TESTING. -/
def EntryState.isTesting : EntryState → Bool
  | .testing _ => true
  | _ => false

/-- Whether the state is ENDING. -/
def EntryState.isEnding : EntryState → Bool
  | .ending _ => true
  | _ => false

/-! ### Derived counts (R11, R28, R29, R30) -/

/-- How many entries satisfy a test. -/
def State.count (s : State) (p : Entry → Bool) : Nat := s.entries.toList.countP p

/-- N: in-use, not-barred entries of a group (R28). -/
def State.members (s : State) (g : Fin 32) : Nat := s.count fun e => e.inUse && !e.barred && e.group == g

/-- O: in-use entries of a group in an out-of-service state (R29). -/
def State.outOfService (s : State) (g : Fin 32) : Nat :=
  s.count fun e => e.inUse && e.state.outOfService && e.group == g

/-- The quota of N members at a quota percent (R30). -/
def quotaOf (percent n : Nat) : Nat :=
  if percent = 0 then 0
  else if n * percent / 100 = 0 ∧ 1 ≤ n then 1
  else n * percent / 100

/-- Q of a group (R30). -/
def State.quota (s : State) (g : Fin 32) : Nat := quotaOf (s.group g).quotaPercent (s.members g)

/-- The quota check (R31). -/
def State.quotaOk (s : State) (g : Fin 32) : Bool := decide (s.outOfService g < s.quota g)

/-- The line active count (R11). -/
def State.lineActive (s : State) (n : LineId) : Nat :=
  s.count fun e => e.inUse && e.state.underTest && e.line == n

/-- The number of in-use entries with touched set (R9). -/
def State.touchedCount (s : State) : Nat := s.count fun e => e.inUse && e.touched

/-- The number of in-use entries whose state has a code (R183). -/
def State.stateCount (s : State) (code : Nat) : Nat := s.count fun e => e.inUse && e.state.code == code

/-- The recharge R of a group in minutes (R23). -/
def GroupSettings.recharge (g : GroupSettings) : Nat := g.rechargeHours * 60

/-! ### Translation (R4, R5) -/

/-- Translation by campus number (R4). -/
def State.findCln (s : State) (cln : Nat) : Option EntryId :=
  allEntries.find? fun i => (s.entry i).inUse && (s.entry i).cln == cln

/-- Translation by place (R5). -/
def State.findPlace (s : State) (n : LineId) (node : Nat) : Option EntryId :=
  allEntries.find? fun i => (s.entry i).inUse && (s.entry i).line == n && (s.entry i).node == node

/-! ### Conditions -/

/-- A line is in outage in ABSENT and RESTORE_PENDING (R121). -/
def SenseState.inOutage : SenseState → Bool
  | .absent | .restorePending _ => true
  | _ => false

/-- The level of a line's mains sense input, which the sense state tells (R121, log 9). -/
def SenseState.inputPresent : SenseState → Bool
  | .present | .restorePending _ => true
  | _ => false

/-- Whether a line is in outage. -/
def State.inOutage (s : State) (n : LineId) : Bool := (s.mainsLine n).sense.inOutage

/-- Whether a line is in hold-off (R129). -/
def State.inHoldOff (s : State) (n : LineId) : Bool := decide (0 < (s.mainsLine n).holdOff)

/-- Whether an engine is DOWN. -/
def Engine.isDown : Engine → Bool
  | .down => true
  | _ => false

/-- Whether an engine is IDLE. -/
def Engine.isIdle : Engine → Bool
  | .idle => true
  | _ => false

/-- Whether an engine is HOLDING. -/
def Engine.isHolding : Engine → Bool
  | .holding => true
  | _ => false

/-- Whether a line is DOWN. -/
def State.lineDown (s : State) (n : LineId) : Bool := (s.line n).engine.isDown

/-- The exchange in flight on a line (R136). -/
def Engine.exchange : Engine → Option Exchange
  | .sending x => some x
  | .awaiting x _ => some x
  | _ => none

/-- The calendar-valid condition (R45). -/
def State.calendarValid (s : State) : Bool := s.rows.toList.all fun r => r.written

/-- The armed condition (R70). -/
def State.armed (s : State) : Bool := s.settings.schedulerEnable && s.clockValid && s.calendarValid

/-- The image-busy condition (R177). -/
def State.imageBusy (s : State) : Bool := s.save.isSome

/-- A queue of the Trunk Port holds at most 16 frames (R154, R155). -/
def State.txFull (s : State) : Bool := decide (16 ≤ s.tx.length)

/-! ### Addresses (R151) -/

/-- The station address of a strap number, 02-A7-3C-00-00-nn. -/
def stationAddressOf (strap : Byte) : Mac := 0x02A73C000000 ||| strap.setWidth 48

/-- The bridge's station address. -/
def State.stationAddress (s : State) : Mac := stationAddressOf s.strap

/-- The group address. -/
def groupAddress : Mac := 0x03A73C0000FF

/-- The broadcast address. -/
def broadcastAddress : Mac := 0xFFFFFFFFFFFF

/-- The frame the bridge sends to an address: the type in force, the station address, the bridge number (R157). -/
def State.frameTo (s : State) (dest : Mac) (kind : FrameKind) (tag : Tag) (body : List Byte) : Frame :=
  { dest := dest, source := s.stationAddress, etype := s.settings.lightingType, kind := kind, tag := tag,
    bridge := s.strap, body := body }

/-- Put a frame at the tail of the transmit queue. -/
def State.pushTx (s : State) (f : Frame) : State := { s with tx := s.tx ++ [f] }

/-! ### Arithmetic -/

/-- a / b rounded up. -/
def divUp (a b : Nat) : Nat := (a + b - 1) / b

/-- A value brought into a range (R25, R119, R131, R145). -/
def clamp (lo hi v : Nat) : Nat := max lo (min v hi)

end Sys2Proof.Machine
end

