-- ==== Sys2Proof/Machine/Flags.lean ====
section
/-! DEFINITION. The sticky event flags and the notice marks (R181, R184). -/

namespace Sys2Proof.Machine

/-- The bit of a flag (section 12.6). -/
def EventFlag.bit : EventFlag → Nat
  | .overdue => 0
  | .verdictFail => 1
  | .verdictMarginal => 2
  | .noContact => 3
  | .halted => 4
  | .outageStart => 5
  | .outageEnd => 6
  | .captureHit => 7
  | .lineFault => 8
  | .inboundDropped => 9
  | .imageSaved => 10
  | .imageFault => 11
  | .imageBad => 12
  | .clockNeeded => 13

/-- The set that holds one flag. -/
def EventFlag.mask (f : EventFlag) : BitVec 14 := 1#14 <<< f.bit

/-- Whether a flag is in a set. -/
def EventFlag.isIn (f : EventFlag) (set : BitVec 14) : Bool := set.getLsbD f.bit

/-- Whether a flag is set. -/
def State.flag (s : State) (f : EventFlag) : Bool := f.isIn s.flags

/-- Whether a frame is a NOTICE. -/
def Frame.isNotice (f : Frame) : Bool := f.kind == .notice

/-- Whether a NOTICE stands in the transmit queue (R184). -/
def State.noticeQueued (s : State) : Bool := s.tx.any Frame.isNotice

/-- What the rise of a flag does to the notice marks (the table of R184). -/
def State.noteRise (s : State) (f : EventFlag) : State :=
  if f.isIn s.settings.notifyMask = false then s
  else if s.settings.reportAddress = 0 then s
  else if s.noticePending then s
  else if s.noticeQueued then { s with noticeOwed := true }
  else { s with noticePending := true }

/-- An event raises its flag, whatever the notify mask holds (R181); raising a set flag is no rise. -/
def State.raise (s : State) (f : EventFlag) : State :=
  if s.flag f then s else State.noteRise { s with flags := s.flags ||| f.mask } f

/-- Clear the flags of a set (R175, R174, R40). -/
def State.clearFlags (s : State) (set : BitVec 14) : State := { s with flags := s.flags &&& ~~~ set }

end Sys2Proof.Machine
end

