-- ==== Sys2Proof/Machine/Capture.lean ====
section
/-! DEFINITION. The Capture Unit's comparator and completion (R163 to R167), and what the requests of the three clients
show it. -/

namespace Sys2Proof.Machine

/-! ### What a request shows -/

/-- The request name of a control request. -/
def ControlKind.name : ControlKind → ReqName
  | .startFunction => .startFunction
  | .startDuration _ => .startDuration
  | .stopTest => .stopTest

/-- Whether a control request is a start. -/
def ControlKind.isStart : ControlKind → Bool
  | .startFunction | .startDuration _ => true
  | .stopTest => false

/-- Whether a request name is a start. -/
def ReqName.isStart : ReqName → Bool
  | .startFunction | .startDuration => true
  | _ => false

/-- The argument bytes of a request the bridge makes: the minutes of a START_DURATION in byte 0; the unused bytes are
filler (section 12.2, logs 11 and 28). -/
def ControlKind.arg : ControlKind → Argument
  | .startDuration m => { b0 := byteOf m, b1 := Config.fillByte 1, b2 := Config.fillByte 2 }
  | _ => { b0 := Config.fillByte 0, b1 := Config.fillByte 1, b2 := Config.fillByte 2 }

/-- The argument bytes of a bridge PROBE, all unused. -/
def probeArg : Argument := { b0 := Config.fillByte 0, b1 := Config.fillByte 1, b2 := Config.fillByte 2 }

/-- The request name of the work in an exchange. -/
def Work.name : Work → ReqName
  | .passThrough r => r.name
  | .control r => r.kind.name
  | .poll _ => .probe

/-- The entry the work is for. -/
def Work.entry : Work → EntryId
  | .passThrough r => r.entry
  | .control r => r.entry
  | .poll r => r.entry

/-- The capture mark of the work. -/
def Work.mark : Work → Option Nat
  | .passThrough r => r.mark
  | .control r => r.mark
  | .poll r => r.mark

/-- The argument of the work. -/
def Work.arg : Work → Argument
  | .passThrough r => r.arg
  | .control r => r.kind.arg
  | .poll _ => probeArg

/-- Whether the poll client sent the work (R97). -/
def Work.isPoll : Work → Bool
  | .poll _ => true
  | _ => false

/-! ### The comparator -/

/-- Whether a class suits a mode (R165). -/
def CaptureMode.suits : CaptureMode → ReqClass → Bool
  | .off, _ => false
  | .any, _ => true
  | .change, c => c == .change
  | .test, c => c == .test

/-- Whether a request joining a line's work for entry `i` matches (R165). -/
def State.captureMatches (s : State) (name : ReqName) (i : EntryId) : Bool :=
  s.capture.state == .watching && (s.entry i).inUse && (s.entry i).cln == s.capture.target &&
    s.capture.mode.suits name.cls

/-- The mark a request joining a line's work gets: a fresh one when it matches. -/
def State.captureMark (s : State) (name : ReqName) (i : EntryId) : Option Nat :=
  if s.captureMatches name i then some s.capture.nextMark else none

/-- Hand a joining request to the comparator: on a match the record is opened (R165). -/
def State.captureOffer (s : State) (origin : CaptureOrigin) (name : ReqName) (arg : Argument) (i : EntryId)
    (n : LineId) (node : Nat) : State :=
  if s.captureMatches name i then
    { s with
      capture :=
        { s.capture with
          state := .opened
            { origin := origin, name := name, arg := arg, line := n, node := node,
              clock := if s.clockValid then some s.minute else none, answer := none } s.capture.nextMark
          nextMark := s.capture.nextMark + 1 } }
  else s

/-- Whether an OPEN capture's record is of the request with this mark. -/
def Capture.recorded (c : Capture) (mark : Option Nat) : Bool :=
  match c.state, mark with
  | .opened _ k, some m => m == k
  | _, _ => false

/-- The capture state after its completion with an answer (R166, step 1). -/
def CaptureState.completed : CaptureState → CaptureAnswer → CaptureState
  | .opened r _, a => .idle (some { r with answer := some a })
  | c, _ => c

/-- The hold of RECORD_HOLD (R166, step 3). -/
def State.captureHold (s : State) (i : EntryId) : State :=
  if s.capture.action == .recordHold && (s.entry i).inUse && (s.entry i).cln == s.capture.target then
    s.setEntry i { s.entry i with held := true }
  else s

/-- The recorded request has ended, or has left its queue (R166, R167): the capture completes. A request that is not
the recorded one completes nothing. -/
def State.captureEnd (s : State) (mark : Option Nat) (i : EntryId) (a : CaptureAnswer) : State :=
  if s.capture.recorded mark then
    (State.raise { s with capture := { s.capture with state := s.capture.state.completed a } } .captureHit).captureHold i
  else s

end Sys2Proof.Machine
end

