-- ==== Sys2Proof/Machine/LineWork.lean ====
section
/-! DEFINITION. The three clients of a line, the arbiter and the beginning of an exchange (spec/08), and the stops owed
to ENDING entries (R101). -/

namespace Sys2Proof.Machine

/-! ### Line requests on the wire (R188, section 12.5) -/

/-- The argument bytes a request code calls for; unused bytes are left out. SET_REST's stands in byte 0 (log 36). -/
def argBytes (name : ReqName) (a : Argument) : List Byte :=
  match name with
  | .readParam | .startDuration | .setRest => [a.b0]
  | .setParam => [a.b0, a.b1, a.b2]
  | .probe | .identify | .startFunction | .stopTest => []

/-- A line request: node, exchange number, request code, argument, check byte. -/
def lineRequestBytes (node : Nat) (number : Byte) (name : ReqName) (a : Argument) : List Byte :=
  let b := byteOf node :: number :: byteOf name.code :: argBytes name a
  b ++ [crc8 b]

/-! ### Joining and leaving the clients (R142, R143) -/

/-- Put a bridge request at the tail of a line's control queue; it is handed to the comparator (R165). -/
def State.joinControl (s : State) (n : LineId) (kind : ControlKind) (i : EntryId) (node : Nat) : State :=
  let mark := s.captureMark kind.name i
  let s := s.captureOffer .bridge kind.name kind.arg i n node
  s.setLine n { s.line n with
    control := (s.line n).control ++ [{ kind := kind, entry := i, node := node, mark := mark }] }

/-- Put a head-end request at the tail of a line's pass-through queue; it is handed to the comparator (R161, R165). -/
def State.joinPass (s : State) (n : LineId) (r : PassRequest) : State :=
  let mark := s.captureMark r.name r.entry
  let s := s.captureOffer .headend r.name r.arg r.entry n r.node
  s.setLine n { s.line n with pass := (s.line n).pass ++ [{ r with mark := mark }] }

/-- Put a PROBE into a list kept in order of map index. -/
def insertPoll (p : PollRequest) : List PollRequest → List PollRequest
  | [] => [p]
  | q :: rest => if p.entry.val ≤ q.entry.val then p :: q :: rest else q :: insertPoll p rest

/-- Place a PROBE for an entry with the poll client of its line; at most one waits for each entry (R96, R143). -/
def State.joinPoll (s : State) (i : EntryId) : State :=
  let n := (s.entry i).line
  if (s.line n).polls.any (fun p => p.entry == i) then s
  else
    let mark := s.captureMark .probe i
    let s := s.captureOffer .bridge .probe probeArg i n (s.entry i).node
    s.setLine n { s.line n with polls := insertPoll { entry := i, mark := mark } (s.line n).polls }

/-- Complete a capture for each of some removed requests, given by mark and entry (R167). -/
def State.captureEndAll (s : State) (removed : List (Option Nat × EntryId)) (a : CaptureAnswer) : State :=
  removed.foldl (fun t r => t.captureEnd r.1 r.2 a) s

/-- The marks and entries of some polls. -/
def pollMarks (ps : List PollRequest) : List (Option Nat × EntryId) := ps.map fun p => (p.mark, p.entry)

/-- The marks and entries of some control requests. -/
def controlMarks (cs : List ControlRequest) : List (Option Nat × EntryId) := cs.map fun c => (c.mark, c.entry)

/-- The marks and entries of some pass-through requests. -/
def passMarks (ps : List PassRequest) : List (Option Nat × EntryId) := ps.map fun p => (p.mark, p.entry)

/-- Withdraw the PROBE waiting for an entry, if any (R96); a recorded one completes the capture WITHDRAWN (R167). -/
def State.withdrawPoll (s : State) (i : EntryId) : State :=
  let n := (s.entry i).line
  let l := s.line n
  (s.setLine n { l with polls := l.polls.filter fun p => p.entry != i }).captureEndAll
    (pollMarks (l.polls.filter fun p => p.entry == i)) .withdrawn

/-- Remove from a line's control queue the requests that satisfy a test; a recorded one completes the capture with the
answer given (R167). -/
def State.removeControl (s : State) (n : LineId) (p : ControlRequest → Bool) (a : CaptureAnswer) : State :=
  let l := s.line n
  (s.setLine n { l with control := l.control.filter fun c => !p c }).captureEndAll
    (controlMarks (l.control.filter p)) a

/-- The unsent stops of an entry (R112, step 4). -/
def ControlRequest.isStopFor (i : EntryId) (c : ControlRequest) : Bool := c.kind == .stopTest && c.entry == i

/-- The unsent starts of an entry. -/
def ControlRequest.isStartFor (i : EntryId) (c : ControlRequest) : Bool := c.kind.isStart && c.entry == i

/-- The head-end start of an entry waiting in a pass-through queue (R107). -/
def PassRequest.isStartFor (i : EntryId) (r : PassRequest) : Bool := r.name.isStart && r.entry == i

/-! ### Stops owed (R101) -/

/-- Whether a STOP_TEST for a node waits in the line's queues or is in flight on it. -/
def LineEngine.stopStands (l : LineEngine) (node : Nat) : Bool :=
  l.pass.any (fun r => r.name == .stopTest && r.node == node) ||
  l.control.any (fun c => c.kind == .stopTest && c.node == node) ||
  l.engine.exchange.any fun x => x.work.name == .stopTest && x.node == node

/-- The entry of lowest index on a line that is ENDING and has no stop. -/
def State.owedStop (s : State) (n : LineId) : Option EntryId :=
  allEntries.find? fun i =>
    (s.entry i).inUse && (s.entry i).line == n && (s.entry i).state.isEnding &&
      !(s.line n).stopStands (s.entry i).node

/-- Place at most `k` owed stops while the control queue holds fewer than four requests. -/
def State.placeStopsUpTo : Nat → LineId → State → State
  | 0, _, s => s
  | k + 1, n, s =>
    if (s.line n).control.length < 4 then
      match s.owedStop n with
      | some i => State.placeStopsUpTo k n (s.joinControl n .stopTest i (s.entry i).node)
      | none => s
    else s

/-- Place every stop owed on a line for which the control queue has room (R101). -/
def State.placeStops (s : State) (n : LineId) : State := State.placeStopsUpTo 4 n s

/-! ### The arbiter (R144) and the beginning of an exchange (R137) -/

/-- Whether a client has work. -/
def LineEngine.hasWork (l : LineEngine) : Client → Bool
  | .passThrough => !l.pass.isEmpty
  | .control => !l.control.isEmpty
  | .poll => !l.polls.isEmpty

/-- The order of search after the client last granted, in the rotation P, C, L, P. -/
def Client.rotation : Client → List Client
  | .passThrough => [.control, .poll, .passThrough]
  | .control => [.poll, .passThrough, .control]
  | .poll => [.passThrough, .control, .poll]

/-- The client to be granted. -/
def LineEngine.nextClient (l : LineEngine) : Option Client := l.pointer.rotation.find? l.hasWork

/-- Start sent becomes yes when the exchange of an entry's start begins (R92, R137). -/
def State.markStartSent (s : State) (i : EntryId) (name : ReqName) : State :=
  match name.isStart, (s.entry i).state with
  | true, .pending t => s.setEntryState i (.pending { t with startSent := true })
  | _, _ => s

/-- Begin the exchange of a granted request: the exchange number is raised, the attempt count fixed, SENDING entered,
the pointer moved (R135, R137, R144). -/
def State.beginExchange (s : State) (n : LineId) (c : Client) (w : Work) (node : Nat) : State :=
  let l := s.line n
  let number := l.exchangeNumber + 1
  (s.setLine n { l with
    engine := .sending { work := w, node := node, bytes := lineRequestBytes node number w.name w.arg,
                         allowed := l.settings.attempts, made := 1, badSeen := false }
    exchangeNumber := number
    pointer := c }).markStartSent w.entry w.name

/-- Take the request at the head of a client's list and begin its exchange; the poll client gives the PROBE of the
lowest map index, addressed to the entry's node as it stands (R143). -/
def State.grantTo (s : State) (n : LineId) (c : Client) : State :=
  let l := s.line n
  match c with
  | .passThrough =>
    match l.pass with
    | r :: rest => (s.setLine n { l with pass := rest }).beginExchange n c (.passThrough r) r.node
    | [] => s
  | .control =>
    match l.control with
    | r :: rest => (s.setLine n { l with control := rest }).beginExchange n c (.control r) r.node
    | [] => s
  | .poll =>
    match l.polls with
    | r :: rest => (s.setLine n { l with polls := rest }).beginExchange n c (.poll r) (s.entry r.entry).node
    | [] => s

/-- The arbiter grants an IDLE line to the next client with work (R144). -/
def State.grant (s : State) (n : LineId) : State :=
  if (s.line n).engine.isIdle then
    match (s.line n).nextClient with
    | some c => s.grantTo n c
    | none => s
  else s

/-- Owed stops are placed, an IDLE line is granted, and a stop takes the place a grant may have freed (R101, R144). -/
def State.settleLine (s : State) (n : LineId) : State := ((s.placeStops n).grant n).placeStops n

/-- The same for every line, in order (log 5). -/
def State.settleLines (s : State) : State := forLines (fun n t => t.settleLine n) s

end Sys2Proof.Machine
end

