-- ==== Sys2Proof/Machine/Answers.lean ====
section
/-! DEFINITION. Line answers: their forms, their checks and what they carry (R91, R133, R134, R188, section 12.5). -/

namespace Sys2Proof.Machine

/-- The status of a test report (R91). -/
inductive ReportStatus where
  | none | funcRunning | durRunning | funcDone | durDone
  deriving DecidableEq, Repr

/-- The result of a done report (R91). -/
inductive ReportResult where
  | pass | lampFault | batteryFault
  deriving DecidableEq, Repr

/-- A test report (R91). `e` and `v` are 0 where the status makes them absent (R188). -/
structure TestReport where
  status : ReportStatus
  result : Option ReportResult
  e      : Nat
  v      : Nat
  mains  : Bool
  deriving DecidableEq, Repr

/-- The contents of a taken answer, by form (R133). -/
inductive NodeAnswer where
  | start (accepted : Bool)
  | stop (stopped : Bool) (e : Nat)
  | report (report : TestReport)
  | param (ok : Bool)
  | identity
  | change (ok : Bool)
  deriving DecidableEq, Repr

def ReportStatus.ofCode : Nat → Option ReportStatus
  | 0 => some .none
  | 1 => some .funcRunning
  | 2 => some .durRunning
  | 3 => some .funcDone
  | 4 => some .durDone
  | _ => Option.none

/-- The result code; 0 means absent (section 12.6). -/
def ReportResult.ofCode : Nat → Option (Option ReportResult)
  | 0 => some none
  | 1 => some (some .pass)
  | 2 => some (some .lampFault)
  | 3 => some (some .batteryFault)
  | _ => none

/-- The kind a report's status concerns (R91). -/
def ReportStatus.kind : ReportStatus → Option Kind
  | .none => Option.none
  | .funcRunning | .funcDone => some .function
  | .durRunning | .durDone => some .duration

/-- Whether a status is a done one. -/
def ReportStatus.isDone : ReportStatus → Bool
  | .funcDone | .durDone => true
  | _ => false

/-- Whether a status is a running one. -/
def ReportStatus.isRunning : ReportStatus → Bool
  | .funcRunning | .durRunning => true
  | _ => false

/-- The form a request admits (section 12.5). -/
def ReqName.form : ReqName → Nat
  | .startFunction | .startDuration => 1
  | .stopTest => 2
  | .probe => 3
  | .readParam => 4
  | .identify => 5
  | .setParam | .setRest => 6

/-- The length of a whole line answer by its form byte: node, exchange number, form, fields, check (section 12.5). -/
def answerLength : Nat → Option Nat
  | 1 => some 5
  | 2 => some 6
  | 3 => some 10
  | 4 => some 8
  | 5 => some 11
  | 6 => some 5
  | _ => none

/-- A yes/no field of a line answer: any value but 0 and 1 is a code not in the tables (spec/12, R188). -/
def strictYesNo (b : Byte) : Option Bool := if b = 0 then some false else if b = 1 then some true else none

/-- The fields of a test report (form 3): status, result, E, V (2), mains present. A field its status makes absent must
be 0, a done report must have a result, V is at most 4,095 (R188, log 20). -/
def decodeReport (f : List Byte) : Option TestReport :=
  match ReportStatus.ofCode (byteAt f 1).toNat, ReportResult.ofCode (byteAt f 2).toNat, strictYesNo (byteAt f 6) with
  | some st, some res, some mains =>
    let e := (byteAt f 3).toNat
    let v := natAt f 4 2
    if v ≤ 4095 ∧ (st = .none → e = 0) ∧ (st ≠ .durDone → v = 0) ∧ (st.isDone = true ↔ res.isSome = true) then
      some { status := st, result := res, e := e, v := v, mains := mains }
    else none
  | _, _, _ => none

/-- The fourth check of R134: the form is the one the request admits and every field lies within its range (R188).
`f` is the form byte and the fields. -/
def decodeAnswer (name : ReqName) (f : List Byte) : Option NodeAnswer :=
  if (byteAt f 0).toNat ≠ name.form then none
  else
    match name with
    | .startFunction | .startDuration =>
      match (byteAt f 1).toNat with
      | 1 => some (.start true)
      | 2 => some (.start false)
      | _ => none
    | .stopTest =>
      match (byteAt f 1).toNat with
      | 1 => some (.stop true (byteAt f 2).toNat)
      | 2 => if byteAt f 2 = 0 then some (.stop false 0) else none
      | _ => none
    | .probe => (decodeReport f).map .report
    | .readParam =>
      match (byteAt f 1).toNat with
      | 1 => some (.param true)
      | 2 => if natAt f 3 2 = 0 then some (.param false) else none
      | _ => none
    | .identify => if byteAt f 1 = 1 then some .identity else none
    | .setParam | .setRest =>
      match (byteAt f 1).toNat with
      | 1 => some (.change true)
      | 2 => some (.change false)
      | _ => none

/-- What the four checks of R134 make of something heard in the reply window: nothing complete yet, a stray, a bad
answer, or a taken answer with its form byte and fields. -/
inductive Heard where
  | incomplete
  | stray
  | bad
  | taken (answer : NodeAnswer) (fields : List Byte)
  deriving DecidableEq, Repr

/-- The answer as closed at the length its form byte gives (R188). A form byte that is none of the six gives no
length: what was heard stands as it is (log 21). -/
def closeAnswer (heard : List Byte) : List Byte :=
  match answerLength (byteAt heard 2).toNat with
  | some len => heard.take len
  | none => heard

/-- Whether the check byte of a form the table knows has not arrived (log 21). -/
def answerIncomplete (heard : List Byte) : Bool :=
  match answerLength (byteAt heard 2).toNat with
  | some len => decide (heard.length < len)
  | none => false

/-- The four checks of R134, in order. -/
def checkAnswer (node : Nat) (number : Byte) (name : ReqName) (heard : List Byte) : Heard :=
  let b := closeAnswer heard
  let body := b.take (b.length - 1)
  let fields := body.drop 2
  if answerIncomplete heard then .incomplete
  else if b.length < 4 then .bad
  else if byteAt b (b.length - 1) ≠ crc8 body then .bad
  else if (byteAt b 0).toNat ≠ node then .stray
  else if byteAt b 1 ≠ number then .stray
  else
    match decodeAnswer name fields with
    | some a => .taken a fields
    | none => .bad

/-- The end of an exchange (R138), but for a reset's end, which R149 and R150 deal with. -/
inductive ExchangeEnd where
  | answered (answer : NodeAnswer) (fields : List Byte)
  | noAnswer
  | badAnswer
  | aborted
  | lineDown
  deriving DecidableEq, Repr

/-- The LAMP answer code of an end (R162). -/
def ExchangeEnd.lampCode : ExchangeEnd → LampCode
  | .answered _ _ => .ok
  | .noAnswer => .noAnswer
  | .badAnswer => .badAnswer
  | .aborted => .aborted
  | .lineDown => .lineDown

/-- The node answer fields a LAMP answer carries (R162): the form byte and the fields of a taken answer. -/
def ExchangeEnd.fields : ExchangeEnd → List Byte
  | .answered _ f => f
  | _ => []

/-- What a capture records of an end (R166). -/
def ExchangeEnd.captureAnswer : ExchangeEnd → CaptureAnswer
  | .answered _ f => .node f
  | .noAnswer => .outcome .noAnswer
  | .badAnswer => .outcome .badAnswer
  | .aborted => .outcome .aborted
  | .lineDown => .outcome .lineDown

end Sys2Proof.Machine
end

