-- ==== Sys2Proof/Machine/Monitor.lean ====
section
/-! DEFINITION. The Test Monitor: the start's end, verdicts, recharge, backoff, consumption of reports, and what it
takes from the end of an exchange (spec/06). -/

namespace Sys2Proof.Machine

/-! ### Verdicts (R62, R63, R113, R114, R115) -/

/-- The kinds a verdict counts as done for (R62): function, duration. -/
def Verdict.doneFor : Verdict → Kind → Bool × Bool
  | .pass, .function => (true, false)
  | .short, .function => (true, false)
  | .lamp, .function => (true, false)
  | .pass, .duration => (true, true)
  | .marginal, .duration => (true, true)
  | .short, .duration => (false, true)
  | .lamp, .duration => (false, true)
  | _, _ => (false, false)

/-- The history update of a verdict (R63): end times when the clock is valid, overdue-noted flags in either case. -/
def Entry.recordDone (e : Entry) (done : Bool × Bool) (clockValid : Bool) (now : Nat) : Entry :=
  { e with
    lastFunctionEnd := if done.1 && clockValid then some now else e.lastFunctionEnd
    lastDurationEnd := if done.2 && clockValid then some now else e.lastDurationEnd
    overdueFunction := if done.1 then false else e.overdueFunction
    overdueDuration := if done.2 then false else e.overdueDuration }

/-- The flag of a verdict (R114). -/
def Verdict.flag : Verdict → Option EventFlag
  | .short | .lamp | .overrun => some .verdictFail
  | .marginal => some .verdictMarginal
  | .noContact => some .noContact
  | .pass | .noVerdict | .refused | .abortedHeadend | .abortedOutage => none

/-- The outcome policy index of a verdict (R115). -/
def Verdict.policyIndex : Verdict → Option (Fin 8)
  | .noContact => some 0
  | .refused => some 1
  | .lamp => some 2
  | .short => some 3
  | .marginal => some 4
  | .overrun => some 5
  | .abortedOutage => some 6
  | .abortedHeadend => some 7
  | .pass | .noVerdict => none

/-- Whether the outcome policy halts on a verdict (R115). -/
def State.halts (s : State) (v : Verdict) : Bool :=
  match v.policyIndex with
  | some k => s.policy[k]
  | none => false

/-- The recharge of a verdict that does not halt (R113): `r` is the group's recharge, `d` the rated minutes, `e` the
elapsed minutes. -/
def verdictRecharge (r d e : Nat) (kind : Kind) (v : Verdict) : Nat :=
  match kind, v with
  | .function, _ => 0
  | .duration, .abortedHeadend => divUp (r * min e d) d
  | .duration, .abortedOutage => divUp (r * min e d) d
  | .duration, _ => r

/-- RECHARGING with a recharge above 0, READY with a recharge of 0 (R10, R112). -/
def rechargeState (left : Nat) : EntryState := if left = 0 then .ready else .recharging left

/-- Raise a flag if there is one. -/
def State.raiseIf (s : State) : Option EventFlag → State
  | some f => s.raise f
  | none => s

/-- The state move that ends a verdict (R112, step 5). -/
def State.verdictMove (s : State) (i : EntryId) (kind : Kind) (v : Verdict) (e : Nat) : State :=
  if s.halts v then (s.setEntryState i .faulted).raise .halted
  else s.setEntryState i
    (rechargeState (verdictRecharge (s.groupOf (s.entry i)).recharge (s.entry i).rated e kind v))

/-- Record a verdict: the five steps of R112. `e` is the elapsed minutes of the answer that gave it. A mains loss
records ABORTED_OUTAGE the same way, the replacement of step 5 that R125 gives being the move R113 and R115 give for
that verdict. -/
def State.recordVerdict (s : State) (i : EntryId) (v : Verdict) (e : Nat) : State :=
  match (s.entry i).state.test with
  | none => s
  | some t =>
    let s := s.setEntry i ({ s.entry i with lastVerdict := some (v, t.kind) }.recordDone
      (v.doneFor t.kind) s.clockValid s.minute)
    let s := s.raiseIf v.flag
    let s := (s.withdrawPoll i).removeControl (s.entry i).line (ControlRequest.isStopFor i) .withdrawn
    s.verdictMove i t.kind v e

/-! ### The start (R93, R94, R95) -/

/-- Remaining minutes at ACCEPTED (R93). -/
def remainingAtAccepted (kind : Kind) (rated grace : Nat) : Nat :=
  match kind with
  | .duration => min 255 (rated + grace)
  | .function => 10

/-- The current test as ACCEPTED fills it (R93). -/
def CurrentTest.accepted (t : CurrentTest) (remaining pollPeriod : Nat) (started : Option Nat) : CurrentTest :=
  { t with remaining := remaining, remainingAtStart := remaining, pollDue := pollPeriod, missed := 0,
           startedAt := started }

/-- ACCEPTED for an entry in PENDING (R93): TESTING, or on to ENDING when a stop was requested (R108). -/
def State.acceptStart (s : State) (i : EntryId) (t : CurrentTest) : State :=
  let e := s.entry i
  let t := t.accepted (remainingAtAccepted t.kind e.rated s.settings.grace) (s.line e.line).settings.pollPeriod
    (if s.clockValid then some s.minute else none)
  s.setEntry i { e with state := if t.stopRequested then .ending t else .testing t, attempts := 0 }

/-- The retry delay (R95). -/
def retryDelay (base attempts : Nat) : Nat := min 1440 (base * 2 ^ (attempts - 1))

/-- A failed start (R94), with outcome REFUSED or NO_CONTACT. -/
def State.failStart (s : State) (i : EntryId) (t : CurrentTest) (v : Verdict) : State :=
  let attempts := min ((s.entry i).attempts + 1) s.settings.maxAttempts
  let s := s.setEntry i { s.entry i with attempts := attempts, lastVerdict := some (v, t.kind) }
  let s := s.raiseIf v.flag
  if attempts = s.settings.maxAttempts ∧ s.halts v = true then (s.setEntryState i .faulted).raise .halted
  else s.setEntryState i (.backoff (retryDelay s.settings.backoffBase attempts))

/-- A start taken back (R92, R124, R146, R22): READY with a block reason, the current test dropped. -/
def State.takeBack (s : State) (i : EntryId) (r : BlockReason) : State :=
  s.setEntry i { s.entry i with state := .ready, lastBlock := some r }

/-- The end of the start's exchange for an entry in PENDING (the table of R92). -/
def State.startEnd (s : State) (i : EntryId) (t : CurrentTest) (e : ExchangeEnd) : State :=
  match e with
  | .answered (.start true) _ => s.acceptStart i t
  | .answered _ _ => s.failStart i t .refused
  | .noAnswer => s.failStart i t .noContact
  | .badAnswer => s.failStart i t .noContact
  | .aborted => s.takeBack i .aborted
  | .lineDown => s.takeBack i .lineDown

/-! ### Judging and consuming reports (R98, R99, R109, R110) -/

/-- The verdict of a FUNC_DONE report (R109). -/
def judgeFunction (result : Option ReportResult) : Verdict :=
  match result with
  | some .lampFault => .lamp
  | some .batteryFault => .short
  | _ => .pass

/-- The verdict of a DUR_DONE report: the four checks of R110. -/
def judgeDuration (result : Option ReportResult) (e v rated criteria : Nat) : Verdict :=
  if result = some .lampFault then .lamp
  else if e < rated ∨ result = some .batteryFault then .short
  else if criteria ≠ 0 ∧ v < criteria then .marginal
  else .pass

/-- The verdict a done report of the kind under test gives. -/
def State.judge (s : State) (i : EntryId) (kind : Kind) (r : TestReport) : Verdict :=
  match kind with
  | .function => judgeFunction r.result
  | .duration => judgeDuration r.result r.e r.v (s.entry i).rated s.criteria[(s.entry i).battery]

/-- TESTING to ENDING; a PROBE still waiting is withdrawn (R96). -/
def State.toEnding (s : State) (i : EntryId) (t : CurrentTest) : State :=
  (s.setEntryState i (.ending t)).withdrawPoll i

/-- A report consumed for an entry in TESTING: the first line of R98's table that applies. -/
def State.consumeTesting (s : State) (i : EntryId) (t : CurrentTest) (r : TestReport) : State :=
  let t := { t with missed := 0 }
  let s := s.setEntryState i (.testing t)
  if r.status.isDone = true ∧ r.status.kind = some t.kind then s.recordVerdict i (s.judge i t.kind r) r.e
  else if r.mains = false then s.recordVerdict i .abortedOutage r.e
  else if r.status.isRunning then
    if r.status.kind = some t.kind then s else s.toEnding i { t with stopRequested := false }
  else s.recordVerdict i .noVerdict r.e

/-- A report consumed for an entry in ENDING (R99). -/
def State.consumeEnding (s : State) (i : EntryId) (t : CurrentTest) (r : TestReport) : State :=
  let t := { t with missed := 0 }
  let s := s.setEntryState i (.ending t)
  if r.status.isDone = true ∧ r.status.kind = some t.kind then s.recordVerdict i (s.judge i t.kind r) r.e
  else if r.mains = false then s.recordVerdict i .abortedOutage r.e
  else s

/-- A poll that ended without an answer, for an entry in TESTING (R97). -/
def State.missPoll (s : State) (i : EntryId) (t : CurrentTest) : State :=
  let t := { t with missed := t.missed + 1 }
  let s := s.setEntryState i (.testing t)
  if 3 ≤ t.missed then s.recordVerdict i .noContact 0 else s

/-- The verdict of a stop answer for an entry in ENDING (the table of R102). -/
def stopVerdict (stopRequested : Bool) (remaining : Nat) (stopped : Bool) : Verdict :=
  if stopRequested then (if stopped then .abortedHeadend else .noVerdict)
  else if remaining = 0 then .overrun else .noVerdict

/-! ### What the Monitor takes (R91) -/

/-- The end of an exchange for an entry in PENDING. Only the end of its own start's exchange is taken, and that has
begun only when start sent is yes (R92, log 13). -/
def State.endForPending (s : State) (i : EntryId) (t : CurrentTest) (name : ReqName) (e : ExchangeEnd) : State :=
  if name.isStart && t.startSent then s.startEnd i t e else s

/-- The end of an exchange for an entry in TESTING (R97, R98, R102). R103 gives a stop exchange that ends without an
answer no row for TESTING; such an end changes nothing here (log 31). -/
def State.endForTesting (s : State) (i : EntryId) (t : CurrentTest) (name : ReqName) (poll : Bool)
    (e : ExchangeEnd) : State :=
  match name with
  | .probe =>
    match e with
    | .answered (.report r) _ => s.consumeTesting i t r
    | .answered _ _ => s
    | .noAnswer => if poll then s.missPoll i t else s
    | .badAnswer => if poll then s.missPoll i t else s
    | .aborted => if poll then s.joinPoll i else s
    | .lineDown => if poll then s.joinPoll i else s
  | .stopTest =>
    match e with
    | .answered (.stop true el) _ => s.recordVerdict i .abortedHeadend el
    | _ => s
  | _ => s

/-- The end of an exchange for an entry in ENDING (R99, R102, R103). -/
def State.endForEnding (s : State) (i : EntryId) (t : CurrentTest) (name : ReqName) (e : ExchangeEnd) : State :=
  match name with
  | .probe =>
    match e with
    | .answered (.report r) _ => s.consumeEnding i t r
    | _ => s
  | .stopTest =>
    match e with
    | .answered (.stop stopped el) _ => s.recordVerdict i (stopVerdict t.stopRequested t.remaining stopped) el
    | .answered _ _ => s
    | .noAnswer => s.recordVerdict i .noContact 0
    | .badAnswer => s.recordVerdict i .noContact 0
    | .aborted => s
    | .lineDown => s
  | _ => s

/-- What the Test Monitor takes from the end of an exchange, by the state of the entry the (line, node) finds (R91). -/
def State.monitorEnd (s : State) (n : LineId) (node : Nat) (name : ReqName) (poll : Bool) (e : ExchangeEnd) : State :=
  match s.findPlace n node with
  | none => s
  | some i =>
    match (s.entry i).state with
    | .pending t => s.endForPending i t name e
    | .testing t => s.endForTesting i t name poll e
    | .ending t => s.endForEnding i t name e
    | .ready => s
    | .recharging _ => s
    | .backoff _ => s
    | .faulted => s

/-! ### Minute events (R95, R100, R118) -/

/-- A TESTING entry's remaining minutes have reached 0 (R100): ENDING, owed a stop; or OVERRUN at once on a DOWN line. -/
def State.remainingOut (s : State) (i : EntryId) (t : CurrentTest) : State :=
  let t := { t with remaining := 0 }
  if s.lineDown (s.entry i).line then (s.setEntryState i (.testing t)).recordVerdict i .overrun 0
  else s.toEnding i t

/-- A minute event for one entry: remaining minutes, recharge left or retry left is lowered by one, and at 0 the entry
moves on (R100, R118, R95). The retry delay does not count on a line in outage. -/
def State.minuteEntry (i : EntryId) (s : State) : State :=
  match (s.entry i).state with
  | .testing t => if t.remaining ≤ 1 then s.remainingOut i t
      else s.setEntryState i (.testing { t with remaining := t.remaining - 1 })
  | .recharging left => if left ≤ 1 then s.setEntryState i .ready else s.setEntryState i (.recharging (left - 1))
  | .backoff left =>
    if s.inOutage (s.entry i).line then s
    else if left ≤ 1 then s.setEntryState i .ready else s.setEntryState i (.backoff (left - 1))
  | .ready => s
  | .pending _ => s
  | .ending _ => s
  | .faulted => s

/-- Poll due of a TESTING entry has reached 0: a PROBE is placed if none waits, and poll due is reloaded (R96). -/
def State.pollDue (s : State) (i : EntryId) : State :=
  match (s.entry i).state with
  | .testing t =>
    (s.setEntryState i (.testing { t with pollDue := (s.line (s.entry i).line).settings.pollPeriod })).joinPoll i
  | _ => s

/-! ### Resets (R22) -/

/-- The state of an entry after a reset (the table of R22). -/
def Entry.afterReset (e : Entry) (recharge : Nat) : Entry :=
  match e.state with
  | .pending t =>
    if t.startSent then { e with state := if t.kind = .duration then .recharging recharge else .ready }
    else { e with state := .ready, lastBlock := some .aborted }
  | .testing t => { e with state := if t.kind = .duration then .recharging recharge else .ready }
  | .ending t => { e with state := if t.kind = .duration then .recharging recharge else .ready }
  | .ready => e
  | .recharging _ => e
  | .backoff _ => e
  | .faulted => e

/-- Move one entry by R22. -/
def State.resetEntry (i : EntryId) (s : State) : State :=
  if (s.entry i).inUse then s.setEntry i ((s.entry i).afterReset (s.groupOf (s.entry i)).recharge) else s

end Sys2Proof.Machine
end

