-- ==== Sys2Proof/Machine/Exchange.lean ====
section
/-! DEFINITION. The course and the end of an exchange, the answer backlog, line-supply faults, LINE_ABORT and the line
part of the resets (spec/08, R162). -/

namespace Sys2Proof.Machine

/-! ### LAMP answers (R162, section 12.2) -/

/-- The body of a LAMP answer: campus number, request code, answer code, node answer length, node answer. -/
def lampAnswerBody (cln request : Nat) (code : LampCode) (node : List Byte) : List Byte :=
  beBytes 4 cln ++ byteOf request :: byteOf code.code :: byteOf node.length :: node

/-- The LAMP answer to a pass-through request, built from the particulars the request carried (R162, R157). -/
def State.passAnswer (s : State) (r : PassRequest) (code : LampCode) (node : List Byte) : Frame :=
  s.frameTo r.source .lampAnswer r.tag (lampAnswerBody r.cln r.name.code code node)

/-- Put an answer at the tail of a line's backlog (R140). -/
def State.joinBacklog (s : State) (n : LineId) (f : Frame) : State :=
  s.setLine n { s.line n with backlog := (s.line n).backlog ++ [f] }

/-- Set a line's engine state. -/
def State.setEngine (s : State) (n : LineId) (g : Engine) : State := s.setLine n { s.line n with engine := g }

/-- The answer of a pass-through exchange that ended other than by a line-supply fault: it enters the transmit queue in
the same step when it is the only one owed and a place is free, and the engine enters GAP; otherwise it joins the
backlog and the engine enters HOLDING (R140). -/
def State.passAnswerOut (s : State) (n : LineId) (f : Frame) : State :=
  if (s.line n).backlog.isEmpty && !s.txFull then (s.pushTx f).setEngine n .gap
  else (s.joinBacklog n f).setEngine n .holding

/-- Touched is set by a change request answered OK, on the entry the answer concerns when its campus number is the one
the request was translated from (R9). -/
def State.touch (s : State) (n : LineId) (r : PassRequest) (e : ExchangeEnd) : State :=
  match e with
  | .answered (.change true) _ =>
    match s.findPlace n r.node with
    | some i => if (s.entry i).cln = r.cln then s.setEntry i { s.entry i with touched := true } else s
    | none => s
  | _ => s

/-! ### The end of an exchange (R138) -/

/-- What the client of an ended exchange does: the Lamp Path's answer (R140, R162), a bridge stop put back (R146, R148). -/
def State.clientEnd (s : State) (n : LineId) (w : Work) (e : ExchangeEnd) : State :=
  match w with
  | .passThrough r =>
    let s := s.touch n r e
    match e with
    | .lineDown => s.joinBacklog n (s.passAnswer r e.lampCode e.fields)
    | _ => s.passAnswerOut n (s.passAnswer r e.lampCode e.fields)
  | .control r =>
    match r.kind, e with
    | .stopTest, .aborted => if (s.line n).control.length < 4 then s.joinControl n .stopTest r.entry r.node else s
    | .stopTest, .lineDown => if (s.line n).control.length < 4 then s.joinControl n .stopTest r.entry r.node else s
    | _, _ => s
  | .poll _ => s

/-- The end of an exchange is handed to the Test Monitor, the Capture Unit and the client (R138). The caller has moved
the engine out of the exchange, to GAP or to DOWN. -/
def State.handEnd (s : State) (n : LineId) (x : Exchange) (e : ExchangeEnd) : State :=
  let s := s.monitorEnd n x.node x.work.name x.work.isPoll e
  let s := s.captureEnd x.work.mark x.work.entry e.captureAnswer
  s.clientEnd n x.work e

/-- An exchange that ends with a taken answer, NO_ANSWER, BAD_ANSWER or ABORTED: GAP, or HOLDING when R140 says so. -/
def State.endExchange (s : State) (n : LineId) (x : Exchange) (e : ExchangeEnd) : State :=
  (s.setEngine n .gap).handEnd n x e

/-- An attempt has ended without a taken answer: the request is sent again, or the exchange ends (R137). -/
def State.attemptEnd (s : State) (n : LineId) (x : Exchange) (bad : Bool) : State :=
  let x := { x with badSeen := x.badSeen || bad }
  if x.made < x.allowed then s.setEngine n (.sending { x with made := x.made + 1 })
  else s.endExchange n x (if x.badSeen then .badAnswer else .noAnswer)

/-! ### Requests removed without an exchange -/

/-- A head-end start removed unsent sends its entry back to READY (R146). -/
def State.takeBackUnsent (s : State) (i : EntryId) (r : BlockReason) : State :=
  match (s.entry i).state with
  | .pending t => if t.startSent then s else s.takeBack i r
  | _ => s

/-- One waiting pass-through request dropped by a fault: answered LINE_DOWN through the backlog (R146). -/
def State.dropPassDown (n : LineId) (s : State) (r : PassRequest) : State :=
  let s := s.joinBacklog n (s.passAnswer r .lineDown [])
  let s := if r.name.isStart then s.takeBackUnsent r.entry .lineDown else s
  s.captureEnd r.mark r.entry (.outcome .lineDown)

/-- One start removed from the control queue by a fault (R146). -/
def State.dropStartDown (s : State) (c : ControlRequest) : State :=
  (s.takeBackUnsent c.entry .lineDown).captureEnd c.mark c.entry (.outcome .lineDown)

/-- A line-supply fault, one step for the line (R146): the supply goes off, the engine enters DOWN, the retry timer
starts at 10 s, LINE_FAULT is raised, and the work is dealt with by kind, the exchange in flight first (log 22). -/
def State.supplyFault (s : State) (n : LineId) : State :=
  let l := s.line n
  if l.engine.isDown then s
  else
    let s := (s.setLine n { l with
      engine := .down, supplyOn := false, retryTimer := some 10, senseDue := false }).raise .lineFault
    let s := match l.engine.exchange with
      | some x => s.handEnd n x .lineDown
      | none => s
    let waiting := (s.line n).pass
    let s := waiting.foldl (State.dropPassDown n) (s.setLine n { s.line n with pass := [] })
    let starts := (s.line n).control.filter fun c => c.kind.isStart
    let s := starts.foldl State.dropStartDown
      (s.setLine n { s.line n with control := (s.line n).control.filter fun c => !c.kind.isStart })
    s.settleLine n

/-- The 10-second supply retry timer runs out: the supply is switched on and its sense is to be read (R147). -/
def State.supplyRetry (s : State) (n : LineId) : State :=
  let l := s.line n
  if l.engine.isDown && !l.supplyOn then
    s.setLine n { l with supplyOn := true, retryTimer := none, senseDue := true }
  else s

/-- The supply sense is read 50 ms after the supply came on (R147, R149). -/
def State.senseRead (s : State) (n : LineId) (limit : Bool) : State :=
  let l := s.line n
  if l.senseDue = false then s
  else if l.engine.isDown then
    if limit then s.setLine n { l with supplyOn := false, retryTimer := some 10, senseDue := false }
    else (s.setLine n { l with engine := .idle, senseDue := false }).settleLine n
  else
    let s := s.setLine n { l with senseDue := false }
    if limit then s.supplyFault n else s

/-! ### LINE_ABORT (R148) -/

/-- The exchange in flight on a line ends ABORTED; without one nothing changes. -/
def State.abortLine (s : State) (n : LineId) : State :=
  match (s.line n).engine.exchange with
  | some x => (s.endExchange n x .aborted).settleLine n
  | none => s

/-! ### LINE_RESET and BRIDGE_RESET (R149, R150) -/

/-- The engine part of a reset: IDLE, pointer L, queues empty; a DOWN line has its retry timer dropped, its supply on
and its sense to be read. The backlog, the settings and the exchange number are kept. -/
def LineEngine.reset (l : LineEngine) : LineEngine :=
  { l with
    engine := .idle, pass := [], control := [], polls := [], pointer := .poll
    supplyOn := true, retryTimer := none, senseDue := l.engine.isDown || l.senseDue }

/-- The pass-through requests a LINE_RESET ends or removes, the one in flight first. -/
def LineEngine.resetPass (l : LineEngine) : List PassRequest :=
  match l.engine.exchange with
  | some { work := .passThrough r, .. } => r :: l.pass
  | _ => l.pass

/-- The mark and entry of every request a LINE_RESET ends or removes. -/
def LineEngine.resetMarks (l : LineEngine) : List (Option Nat × EntryId) :=
  (match l.engine.exchange with
    | some x => [(x.work.mark, x.work.entry)]
    | none => []) ++ passMarks l.pass ++ controlMarks l.control ++ pollMarks l.polls

/-- Move every in-use entry of a line by R22. -/
def State.resetLineEntries (s : State) (n : LineId) : State :=
  forEntries (fun i t => if (t.entry i).line = n then t.resetEntry i else t) s

/-- LINE_RESET of a line, one step (R149): head-end requests are answered ABORTED through the backlog in order, a
recorded request completes the capture as ABORTED (R166, R167), the entries move by R22, the engine enters IDLE. -/
def State.resetLine (s : State) (n : LineId) : State :=
  let l := s.line n
  let s := s.setLine n l.reset
  let s := l.resetPass.foldl (fun t r => t.joinBacklog n (t.passAnswer r .aborted [])) s
  let s := s.captureEndAll l.resetMarks (.outcome .aborted)
  s.resetLineEntries n

/-- The line part of BRIDGE_RESET (R150): as LINE_RESET, without answers and with the backlog emptied. -/
def State.resetEngine (n : LineId) (s : State) : State := s.setLine n { (s.line n).reset with backlog := [] }

end Sys2Proof.Machine
end

