-- ==== Sys2Proof/Machine/Mains.lean ====
section
/-! DEFINITION. Mains Sense: the debounce, the debounced loss, the outage recharge of the debounced restore, and
hold-off (spec/07). -/

namespace Sys2Proof.Machine

/-! ### Sense and debounce (R121, R122) -/

/-- An input change (the first two columns of R122's table): the input now reads absent or present; `d` is the debounce
setting. A change that does not arise leaves the sense state as it stands. -/
def SenseState.edge (present : Bool) (d : Nat) : SenseState → SenseState
  | .present => if present then .present else .lossPending d
  | .lossPending t => if present then .present else .lossPending t
  | .absent => if present then .restorePending d else .absent
  | .restorePending t => if present then .restorePending t else .absent

/-- A mains sense input changes (R122). -/
def State.senseChange (s : State) (n : LineId) (present : Bool) : State :=
  s.setMains n { s.mainsLine n with sense := (s.mainsLine n).sense.edge present s.settings.debounce }

/-- Whether a loss debounce runs. -/
def SenseState.isLossPending : SenseState → Bool
  | .lossPending _ => true
  | _ => false

/-- Whether a restore debounce runs. -/
def SenseState.isRestorePending : SenseState → Bool
  | .restorePending _ => true
  | _ => false

/-! ### The debounced loss (R123, R124, R125) -/

/-- A scheduler start not yet sent is taken back by a mains loss (R124): removed from the control queue, a recorded one
completing the capture WITHDRAWN (R167); the entry READY with block reason OUTAGE. -/
def State.takeBackAtLoss (s : State) (n : LineId) (i : EntryId) : State :=
  (s.removeControl n (ControlRequest.isStartFor i) .withdrawn).takeBack i .outage

/-- The elapsed minutes E of a test that a loss ends (R125); 0 for one still PENDING, where both counts are 0. -/
def CurrentTest.elapsedAtLoss (t : CurrentTest) : Nat := t.remainingAtStart - t.remaining

/-- The treatment of one entry of the line at a debounced loss (the table of R124). -/
def State.lossEntry (n : LineId) (i : EntryId) (s : State) : State :=
  if (s.entry i).inUse && (s.entry i).line == n then
    match (s.entry i).state with
    | .pending t =>
      if t.startSent then s.recordVerdict i .abortedOutage 0
      else
        match t.origin with
        | .scheduler => s.takeBackAtLoss n i
        | .headend => s
    | .testing t => s.recordVerdict i .abortedOutage t.elapsedAtLoss
    | .ending t => s.recordVerdict i .abortedOutage t.elapsedAtLoss
    | .ready => s
    | .recharging _ => s
    | .backoff _ => s
    | .faulted => s
  else s

/-- The line's Mains Sense state at a debounced loss (R123, steps 1 to 3). -/
def MainsLine.atLoss : MainsLine := { sense := .absent, outageMinutes := 0, holdOff := 0 }

/-- A debounced loss on a line whose loss debounce runs (R123). A freed control place may go to an owed stop (R124). -/
def State.debouncedLoss (s : State) (n : LineId) : State :=
  if (s.mainsLine n).sense.isLossPending then
    ((forEntries (State.lossEntry n) (s.setMains n .atLoss)).raise .outageStart).settleLine n
  else s

/-! ### The debounced restore (R127, R128, R129) -/

/-- The need of the outage recharge: R × min(X, D) / D, rounded up (R127). -/
def outageNeed (r x d : Nat) : Nat := divUp (r * min x d) d

/-- The outage recharge of one entry (the table of R127). -/
def Entry.afterOutage (e : Entry) (need : Nat) : Entry :=
  match e.state with
  | .ready => if need = 0 then e else { e with state := .recharging need }
  | .recharging left => { e with state := .recharging (max left need) }
  | .backoff _ => if need = 0 then e else { e with state := .recharging need, attempts := 0 }
  | .faulted => e
  | .pending _ => e
  | .testing _ => e
  | .ending _ => e

/-- The treatment of one entry of the line at a debounced restore after an outage of `x` minute events. -/
def State.restoreEntry (n : LineId) (x : Nat) (i : EntryId) (s : State) : State :=
  let e := s.entry i
  if e.inUse && e.line == n then s.setEntry i (e.afterOutage (outageNeed (s.groupOf e).recharge x e.rated)) else s

/-- A debounced restore on a line whose restore debounce runs (R127): the counter holds its value X, the hold-off starts
(R129). -/
def State.debouncedRestore (s : State) (n : LineId) : State :=
  let m := s.mainsLine n
  if m.sense.isRestorePending then
    (forEntries (State.restoreEntry n m.outageMinutes)
      (s.setMains n { m with sense := .present, holdOff := s.settings.holdOff })).raise .outageEnd
  else s

/-! ### Minutes and seconds (R126, R129, R122) -/

/-- A minute event for one line: the outage-minute counter of a line in outage rises up to 65,535, hold-off left is
lowered (R126, R129). -/
def MainsLine.minute (m : MainsLine) : MainsLine :=
  { m with
    outageMinutes := if m.sense.inOutage then min 65535 (m.outageMinutes + 1) else m.outageMinutes
    holdOff := m.holdOff - 1 }

/-- A minute event for every line of Mains Sense. -/
def State.mainsMinute (s : State) : State := { s with mains := Vector.ofFn fun n => (s.mains[n]).minute }

/-- The hold-off of a line ends with its last minute (R129, log 2). -/
def State.holdOffEnd (s : State) (n : LineId) : State :=
  if (s.mainsLine n).holdOff = 1 then s.setMains n { s.mainsLine n with holdOff := 0 } else s

/-- A second for one line: a running debounce timer is lowered by one, and at 0 the debounced event is taken (R122). -/
def State.mainsSecond (n : LineId) (s : State) : State :=
  match (s.mainsLine n).sense with
  | .lossPending t =>
    if t ≤ 1 then s.debouncedLoss n else s.setMains n { s.mainsLine n with sense := .lossPending (t - 1) }
  | .restorePending t =>
    if t ≤ 1 then s.debouncedRestore n else s.setMains n { s.mainsLine n with sense := .restorePending (t - 1) }
  | .present => s
  | .absent => s

end Sys2Proof.Machine
end

