-- ==== Sys2Proof/Machine/Calendar.lean ====
section
/-! DEFINITION. The Test Calendar: weekday and slot, the span test, the blackout list (spec/03). -/

namespace Sys2Proof.Machine

/-! ### Weekday and slot (R43) -/

/-- The day number of a campus minute. -/
def dayNumber (m : Nat) : Nat := m / 1440

/-- The weekday of a campus minute, 0 being Monday. -/
def weekday (m : Nat) : Nat := dayNumber m % 7

/-- The minute of day of a campus minute. -/
def minuteOfDay (m : Nat) : Nat := m - 1440 * dayNumber m

/-- The slot of a campus minute. -/
def slotOf (m : Nat) : Nat := minuteOfDay m / 30

/-- The absolute half-hour of a campus minute. -/
def halfHour (m : Nat) : Nat := m / 30

/-! ### The span test (R52, R53, R54) -/

/-- The slot mask of an absolute half-hour: weekday (h / 48) mod 7, slot h mod 48 (R43). -/
def State.maskAt (s : State) (h : Nat) : BitVec 8 :=
  (s.rows[h / 48 % 7]'(Nat.mod_lt _ (by decide))).masks[h % 48]'(Nat.mod_lt _ (by decide))

/-- Condition 2: every slot the span touches admits the class (R53). -/
def State.slotsAdmit (s : State) (t l : Nat) (c : Fin 8) : Bool :=
  (List.range (halfHour (t + l - 1) + 1 - halfHour t)).all fun k => (s.maskAt (halfHour t + k)).getLsbD c

/-- Whether a blackout includes the class and overlaps the span (R54). -/
def Blackout.blocks (b : Blackout) (t l : Nat) (c : Fin 8) : Bool :=
  b.classes.getLsbD c && decide (b.start < t + l) && decide (t < b.stop)

/-- The span test (R52). -/
def State.spanPermitted (s : State) (t l : Nat) (c : Fin 8) : Bool :=
  decide (t + l ≤ maxMinute + 1) && s.slotsAdmit t l c && s.blackouts.all fun b => !b.blocks t l c

/-! ### The blackout list (R47 to R50) -/

/-- Whether a held entry stays before a new one: its start is earlier, or equal with its end earlier or equal (R48). -/
def Blackout.before (held new : Blackout) : Bool :=
  decide (held.start < new.start) || (held.start == new.start && decide (held.stop ≤ new.stop))

/-- Place a new entry in order (R48). -/
def placeBlackout (new : Blackout) : List Blackout → List Blackout
  | [] => [new]
  | b :: rest => if b.before new then b :: placeBlackout new rest else new :: b :: rest

/-- A BLACKOUT record with classes (R48): the three checks in order, then the insertion. -/
def State.blackoutInsert (s : State) (b : Blackout) : Except MgmtCode State :=
  if b.stop ≤ b.start then .error .badValue
  else if s.blackouts.contains b then .error .duplicate
  else if 16 ≤ s.blackouts.length then .error .tableFull
  else .ok { s with blackouts := placeBlackout b s.blackouts }

/-- A BLACKOUT record with an empty class set (R49): every entry with its start and end is removed. -/
def State.blackoutRemove (s : State) (b : Blackout) : Except MgmtCode State :=
  if b.stop ≤ b.start then .error .badValue
  else .ok { s with blackouts := s.blackouts.filter fun h => !(h.start == b.start && h.stop == b.stop) }

/-- Blackout expiry at a minute event (R50). -/
def State.expireBlackouts (s : State) : State :=
  { s with blackouts := s.blackouts.filter fun b => decide (s.minute < b.stop) }

end Sys2Proof.Machine
end

