-- ==== Sys2Proof/Machine/Due.lean ====
section
/-! DEFINITION. The due evaluation: windows, eligibility, progress, score, candidate and overdue reporting (spec/04). -/

namespace Sys2Proof.Machine

/-! ### The window of one kind (R56, R57) -/

/-- The interval of a kind in days. -/
def GroupSettings.interval (g : GroupSettings) : Kind → Nat
  | .function => g.functionInterval
  | .duration => g.durationInterval

/-- The tolerance of a kind in days. -/
def GroupSettings.tolerance (g : GroupSettings) : Kind → Nat
  | .function => g.functionTolerance
  | .duration => g.durationTolerance

/-- The window width W (R56). -/
def windowWidth (tolerance : Nat) : Nat := max 1440 (2 * tolerance * 1440)

/-- The minute a window opens (R56). -/
def windowOpens (base interval tolerance : Nat) : Nat := base + interval * 1440 - tolerance * 1440

/-- The deadline of a window (R56). -/
def windowDeadline (base interval tolerance : Nat) : Nat :=
  windowOpens base interval tolerance + windowWidth tolerance

/-- The other kind. -/
def Kind.other : Kind → Kind
  | .function => .duration
  | .duration => .function

/-- The last end time of a kind (R13). -/
def Entry.lastEnd (e : Entry) : Kind → Option Nat
  | .function => e.lastFunctionEnd
  | .duration => e.lastDurationEnd

/-- Case 3 of R57: with no history time at all, added at is set to now. -/
def Entry.noteAdded (e : Entry) (now : Nat) : Entry :=
  match e.addedAt, e.lastFunctionEnd, e.lastDurationEnd with
  | none, none, none => { e with addedAt := some now }
  | _, _, _ => e

/-- The base of a kind's window: its last end time, else added at, else the other end time (R56, R57). After case 3 of
R57 one of the three is present. -/
def Entry.windowBase (e : Entry) (k : Kind) (now : Nat) : Nat :=
  match e.lastEnd k, e.addedAt, e.lastEnd k.other with
  | some t, _, _ => t
  | none, some t, _ => t
  | none, none, some t => t
  | none, none, none => now

/-! ### Eligibility, progress, score (R58, R59, R60) -/

/-- The minute a kind's window of an entry opens. -/
def Entry.opens (e : Entry) (g : GroupSettings) (k : Kind) (now : Nat) : Nat :=
  windowOpens (e.windowBase k now) (g.interval k) (g.tolerance k)

/-- Whether an entry is eligible for a kind (R58). -/
def Entry.eligible (e : Entry) (g : GroupSettings) (k : Kind) (now : Nat) : Bool := decide (e.opens g k now ≤ now)

/-- The progress of an open window (R59). -/
def progressOf (now opens width : Nat) : Nat := min 4000 ((now - opens) * 1000 / width)

/-- The progress p of an entry for a kind. -/
def Entry.progress (e : Entry) (g : GroupSettings) (k : Kind) (now : Nat) : Nat :=
  progressOf now (e.opens g k now) (windowWidth (g.tolerance k))

/-- Whether an entry is overdue for a kind (R59). -/
def Entry.overdue (e : Entry) (g : GroupSettings) (k : Kind) (now : Nat) : Bool :=
  e.eligible g k now && decide (1000 ≤ e.progress g k now)

/-- The score of a progress (R60). -/
def scoreOf (k : Kind) (p weight : Nat) : Nat :=
  match k with
  | .function => p * weight
  | .duration => p * weight + 500

/-- The candidate of an entry (the table of R61). -/
def Entry.candidate (e : Entry) (g : GroupSettings) (i : EntryId) (now : Nat) : Option PlanRecord :=
  if e.eligible g .duration now then
    some { entry := i, kind := .duration, score := scoreOf .duration (e.progress g .duration now) g.weight }
  else if e.eligible g .function now then
    some { entry := i, kind := .function, score := scoreOf .function (e.progress g .function now) g.weight }
  else none

/-! ### The evaluation (R55, R66) -/

/-- Whether the evaluation finds the entry newly overdue for a kind. -/
def Entry.newlyOverdue (e : Entry) (g : GroupSettings) (now : Nat) : Kind → Bool
  | .function => e.overdue g .function now && !e.overdueFunction
  | .duration => e.overdue g .duration now && !e.overdueDuration

/-- The entry after the evaluation: added at set by R57, overdue-noted flags set by R66. -/
def Entry.evaluated (e : Entry) (g : GroupSettings) (now : Nat) : Entry :=
  let e := e.noteAdded now
  { e with
    overdueFunction := e.overdueFunction || e.newlyOverdue g now .function
    overdueDuration := e.overdueDuration || e.newlyOverdue g now .duration }

/-- Whether the evaluation raises OVERDUE (R66). -/
def Entry.raisesOverdue (e : Entry) (g : GroupSettings) (now : Nat) : Bool :=
  (e.noteAdded now).newlyOverdue g now .function || (e.noteAdded now).newlyOverdue g now .duration

/-- What the evaluation of an entry writes (R55, R57, R66). -/
def State.evaluate (s : State) (i : EntryId) : State :=
  let e := s.entry i
  let t := s.setEntry i (e.evaluated (s.groupOf e) s.minute)
  if e.raisesOverdue (s.groupOf e) s.minute then t.raise .overdue else t

/-- The candidate the evaluation of an entry hands to the walk (R61). -/
def State.candidateOf (s : State) (i : EntryId) : Option PlanRecord :=
  let e := s.entry i
  (e.noteAdded s.minute).candidate (s.groupOf e) i s.minute

end Sys2Proof.Machine
end

