-- ==== Sys2Proof/Machine/Scheduler.lean ====
section
/-! DEFINITION. The Test Scheduler: the pass timer, the walk, the plan list and admission (spec/05). -/

namespace Sys2Proof.Machine

/-! ### The pass timer and the pass (R70 to R73) -/

/-- Whether the pass state is IDLE. -/
def PassState.isIdle : PassState → Bool
  | .idle => true
  | _ => false

/-- An expiry of the pass timer (the table of R73). -/
def State.passExpiry (s : State) : State :=
  if s.armed && s.passState.isIdle then { s with passState := .walking 0, plan := [] } else s

/-- A minute event for the pass timer (R72). -/
def State.passMinute (s : State) : State :=
  if s.settings.passInterval ≤ s.passTimer + 1 then State.passExpiry { s with passTimer := 0 }
  else { s with passTimer := s.passTimer + 1 }

/-- The pass ends: its plan list is emptied, its state becomes IDLE (R71, R80). -/
def State.endPass (s : State) : State := { s with passState := .idle, plan := [] }

/-! ### The plan list (R77, R78) -/

/-- The order of the plan list: score, highest first, then map index, lowest first (R77). -/
def PlanRecord.before (a b : PlanRecord) : Bool :=
  decide (b.score < a.score) || (a.score == b.score && decide (a.entry.val < b.entry.val))

/-- Put a candidate at the place its score and index give it. -/
def placePlan (c : PlanRecord) : List PlanRecord → List PlanRecord
  | [] => [c]
  | r :: rest => if r.before c then r :: placePlan c rest else c :: r :: rest

/-- Hand a candidate to the plan list (R78). -/
def insertPlan (c : PlanRecord) (l : List PlanRecord) : List PlanRecord :=
  if l.length < 16 then placePlan c l
  else
    match l.getLast? with
    | some last => if last.score < c.score then placePlan c l.dropLast else l
    | none => l

/-! ### The walk (R74, R75, R76) -/

/-- Whether a state is READY. -/
def EntryState.isReady : EntryState → Bool
  | .ready => true
  | _ => false

/-- The candidate conditions of the walk (R75). -/
def State.isCandidate (s : State) (i : EntryId) : Bool :=
  let e := s.entry i
  e.inUse && e.state.isReady && !e.barred && !e.held && !s.inOutage e.line && !s.inHoldOff e.line &&
    !s.lineDown e.line

/-- Put a candidate, if one was formed, in the plan list. -/
def State.offerPlan (s : State) : Option PlanRecord → State
  | some c => { s with plan := insertPlan c s.plan }
  | none => s

/-- Read one entry: evaluate it when it is a candidate entry, and hand its candidate to the plan list. -/
def State.walkOne (s : State) (i : EntryId) : State :=
  if s.isCandidate i then (s.evaluate i).offerPlan (s.candidateOf i) else s

/-- The walk moves on: to the next index, or after entry 239 to admission, which has nothing to do when the list is
empty (R74, R80). -/
def State.walkOn (s : State) (i : EntryId) : State :=
  if h : i.val + 1 < 240 then { s with passState := .walking ⟨i.val + 1, h⟩ }
  else if s.plan.isEmpty then s.endPass
  else { s with passState := .admitting }

/-- The walk's next step; a pass found unarmed ends (R70, R71). -/
def State.walkStep (s : State) : State :=
  match s.passState with
  | .walking i => if s.armed then (s.walkOne i).walkOn i else s.endPass
  | .idle => s
  | .admitting => s

/-! ### Admission (R79 to R86) -/

/-- What admission makes of a record: dropped without a block reason, turned away with one, or admitted. -/
inductive AdmissionResult where
  | dropped
  | blocked (reason : BlockReason)
  | admitted
  deriving DecidableEq, Repr

/-- The length of the span of a record (R82). -/
def Entry.spanLength (e : Entry) : Kind → Nat
  | .function => 1
  | .duration => e.rated

/-- The re-check of R81 and the checks of R82 to R85, in order. -/
def State.admissionResult (s : State) (r : PlanRecord) : AdmissionResult :=
  let e := s.entry r.entry
  if !e.inUse then .dropped
  else if !e.state.isReady then .dropped
  else if e.barred then .dropped
  else if e.held then .blocked .held
  else if s.inOutage e.line || s.inHoldOff e.line then .blocked .outage
  else if s.lineDown e.line then .blocked .lineDown
  else if !s.spanPermitted s.minute (e.spanLength r.kind) (s.groupOf e).occupancy then .blocked .calendar
  else if !s.quotaOk e.group then .blocked .quota
  else if 12 ≤ s.lineActive e.line then .blocked .lineLimit
  else if 4 ≤ (s.line e.line).control.length then .blocked .controlFull
  else .admitted

/-- A current-test record as the move into PENDING creates it (R12, R86). -/
def CurrentTest.fresh (kind : Kind) (origin : Origin) : CurrentTest :=
  { kind := kind, origin := origin, startedAt := none, remaining := 0, missed := 0, pollDue := 0,
    stopRequested := false, startSent := false, remainingAtStart := 0 }

/-- The move into PENDING (R86, R105): a fresh current test, last block reason NONE. -/
def Entry.toPending (e : Entry) (kind : Kind) (origin : Origin) : Entry :=
  { e with state := .pending (.fresh kind origin), lastBlock := some .cleared }

/-- The start request of a plan record (R86). -/
def Entry.startRequest (e : Entry) : Kind → ControlKind
  | .function => .startFunction
  | .duration => .startDuration e.rated

/-- The hand-off of an admitted record (R86). -/
def State.handOff (s : State) (r : PlanRecord) : State :=
  let e := s.entry r.entry
  (s.setEntry r.entry (e.toPending r.kind .scheduler)).joinControl e.line (e.startRequest r.kind) r.entry e.node

/-- One record is dropped, turned away or handed off. -/
def State.admitRecord (s : State) (r : PlanRecord) : State :=
  match s.admissionResult r with
  | .dropped => s
  | .blocked reason => s.setBlock r.entry reason
  | .admitted => s.handOff r

/-- The pass ends when the plan list is empty (R80). -/
def State.endIfEmpty (s : State) : State := if s.plan.isEmpty then s.endPass else s

/-- Admission takes the first record of the plan list (R79); a pass found unarmed ends (R70, R71). -/
def State.admissionStep (s : State) : State :=
  match s.passState with
  | .admitting =>
    if s.armed then
      match s.plan with
      | [] => s.endPass
      | r :: rest =>
        ((State.admitRecord { s with plan := rest } r).settleLine (s.entry r.entry).line).endIfEmpty
    else s.endPass
  | .idle => s
  | .walking _ => s

end Sys2Proof.Machine
end

