-- ==== Sys2Proof/Machine/Status.lean ====
section
/-! DEFINITION. The live conditions, the status block and the capture block, and the building of a NOTICE (R174, R183,
R185, section 12.3). -/

namespace Sys2Proof.Machine

/-! ### The status block (78 bytes) -/

/-- A byte whose four low bits are given, bit 0 first. -/
def bits4 (b0 b1 b2 b3 : Bool) : Byte :=
  byteOf (b0.toNat + 2 * b1.toNat + 4 * b2.toNat + 8 * b3.toNat)

/-- The conditions byte: clock valid, calendar valid, Scheduler armed, image busy. -/
def State.conditions (s : State) : Byte := bits4 s.clockValid s.calendarValid s.armed s.imageBusy

/-- The ten bytes of one line in the status block. -/
def State.lineStatus (s : State) (n : LineId) : List Byte :=
  let m := s.mainsLine n
  let l := s.line n
  boolByte m.sense.inOutage :: (beBytes 2 m.outageMinutes ++ beBytes 2 m.holdOff ++
    [byteOf l.engine.code, byteOf (s.lineActive n), byteOf l.pass.length, byteOf l.control.length,
     byteOf l.backlog.length])

/-- The number of in-use entries in each state, READY to FAULTED (R183). -/
def State.stateCounts (s : State) : List Byte := (List.range 7).map fun c => byteOf (s.stateCount c)

/-- The status block: the sticky flags, the live conditions and the touched count, read in one step (R183). -/
def State.statusBlock (s : State) : List Byte :=
  beBytes 2 s.flags.toNat ++ [s.conditions, byteOf s.passState.code] ++ beBytes 4 s.minute ++
    [byteOf s.rx.length, byteOf s.tx.length] ++ s.stateCounts ++ [byteOf s.touchedCount] ++
    allLines.flatMap s.lineStatus

/-! ### The capture block (30 bytes) -/

/-- The record of a capture state. -/
def CaptureState.record : CaptureState → Option CaptureRecord
  | .idle r => r
  | .watching => none
  | .opened r _ => some r

/-- The node answer bytes a capture record holds. -/
def CaptureRecord.nodeBytes (r : CaptureRecord) : List Byte :=
  match r.answer with
  | some (.node bytes) => bytes
  | _ => []

/-- The record's part of the capture block: 22 bytes; the unused tail of the node answer is filler (log 11). -/
def CaptureRecord.block (r : CaptureRecord) : List Byte :=
  [byteOf r.origin.code, byteOf r.name.code, r.arg.b0, r.arg.b1, r.arg.b2, byteOf r.line.val, byteOf r.node] ++
    timeField r.clock ++ [byteOf (captureAnswerCode r.answer), byteOf r.nodeBytes.length] ++ r.nodeBytes ++
    filler r.nodeBytes.length (8 - r.nodeBytes.length)

/-- The capture block: the record fields are 0 when the record is absent. -/
def Capture.block (c : Capture) : List Byte :=
  byteOf c.state.code :: (beBytes 4 c.target ++ [byteOf c.mode.code, byteOf c.action.code] ++
    match c.state.record with
    | some r => 1 :: r.block
    | none => 0 :: List.replicate 22 0)

/-! ### The NOTICE (R185) -/

/-- The NOTICE as it is built: the raised notice number in the tag, the status block as body, to the report address.
The queue fills it shows are those before it takes its place (log 32). -/
def State.noticeFrame (s : State) : Frame :=
  s.frameTo s.settings.reportAddress .notice (s.noticeNumber + 1) s.statusBlock

/-- The NOTICE is built and placed at the tail of the transmit queue (R185). -/
def State.buildNotice (s : State) : State :=
  { s.pushTx s.noticeFrame with noticePending := false, noticeNumber := s.noticeNumber + 1 }

/-- The Event Unit is served when a notice is pending and a place is free. -/
def State.noticeBuild (s : State) : State := if s.noticePending && !s.txFull then s.buildNotice else s

end Sys2Proof.Machine
end

