-- ==== Sys2Proof/Machine/Lamp.lean ====
section
/-! DEFINITION. The Lamp Path: translation, policing, and what accepting, cancelling, answering and dropping a LAMP
request do (R104 to R108, R158 to R162). -/

namespace Sys2Proof.Machine

/-! ### The request (section 12.2) -/

/-- The campus number of a LAMP request. -/
def Frame.lampCln (f : Frame) : Nat := natAt f.body 0 4

/-- The request code of a LAMP request, as sent. -/
def Frame.lampCode (f : Frame) : Nat := (byteAt f.body 4).toNat

/-- The override flag: 0 clear, any other value set. -/
def Frame.lampOverride (f : Frame) : Bool := byteAt f.body 5 != 0

/-- The argument of a LAMP request. -/
def Frame.lampArg (f : Frame) : Argument := { b0 := byteAt f.body 6, b1 := byteAt f.body 7, b2 := byteAt f.body 8 }

/-- What becomes of a LAMP request (R158): dropped, answered at once, an unsent start cancelled and the stop answered
CANCELLED, or accepted. -/
inductive LampOutcome where
  | drop
  | answer (code : LampCode)
  | cancel (entry : EntryId)
  | accept (entry : EntryId) (name : ReqName)
  deriving DecidableEq, Repr

/-- Whether an outcome is an immediate answer, which needs a transmit place (R158). -/
def LampOutcome.immediate : LampOutcome → Bool
  | .answer _ => true
  | .cancel _ => true
  | .drop => false
  | .accept _ _ => false

/-! ### Policing (R104, R160) -/

/-- The quota check, then the active-count check (R104): the answer of the first that fails. -/
def State.startLimits (s : State) (e : Entry) (quotaChecked : Bool) : Option LampCode :=
  if quotaChecked && !s.quotaOk e.group then some .quota
  else if 12 ≤ s.lineActive e.line then some .activeLimit
  else none

/-- The check of a head-end start against the entry's state, the quota and the active count (the table of R104). -/
def State.startCheck (s : State) (e : Entry) (override : Bool) : Option LampCode :=
  match e.state with
  | .ready => s.startLimits e (!override)
  | .backoff _ => s.startLimits e (!override)
  | .faulted => s.startLimits e (!override)
  | .recharging _ => if override then s.startLimits e false else some .busy
  | .pending _ => some .busy
  | .testing _ => some .busy
  | .ending _ => some .busy

/-- Whether an entry is PENDING with its start not sent (R106). -/
def EntryState.unsentStart : EntryState → Bool
  | .pending t => !t.startSent
  | _ => false

/-- The pass-through queue counts as full when waiting requests and backlog answers number 8 (R141). -/
def LineEngine.passFull (l : LineEngine) : Bool := decide (8 ≤ l.pass.length + l.backlog.length)

/-- The start check where it applies (the third row of R160). -/
def State.startPolice (s : State) (e : Entry) (name : ReqName) (override : Bool) : Option LampCode :=
  if name.isStart then s.startCheck e override else none

/-- The checks of R160, in order, on a well-formed request for an entry. -/
def State.police (s : State) (i : EntryId) (name : ReqName) (override : Bool) : LampOutcome :=
  let e := s.entry i
  if e.barred then .answer .barred
  else if name.cls == .change && e.locked then .answer .locked
  else
    match s.startPolice e name override with
    | some code => .answer code
    | none =>
      if name == .stopTest && e.state.unsentStart then .cancel i
      else if (s.line e.line).passFull then .answer .lineFull
      else if s.lineDown e.line then .answer .lineDown
      else .accept i name

/-- A SET_REST carries rest off (0) or rest on (1) only (R159, section 12.2), read in argument byte 0 (log 36). -/
def restArgOk (name : ReqName) (a : Argument) : Bool := name != .setRest || decide (a.b0.toNat ≤ 1)

/-- The outcome of a LAMP request against the state as it stands (R159, R160). -/
def State.lampOutcome (s : State) (f : Frame) : LampOutcome :=
  match s.findCln f.lampCln with
  | none => if f.dest = s.stationAddress then .answer .unknown else .drop
  | some i =>
    match ReqName.ofCode f.lampCode with
    | none => .answer .badRequest
    | some name => if restArgOk name f.lampArg then s.police i name f.lampOverride else .answer .badRequest

/-! ### Acceptance (R105, R106, R108, R161) -/

/-- The kind of a start request. -/
def ReqName.startKind : ReqName → Option Kind
  | .startFunction => some .function
  | .startDuration => some .duration
  | _ => none

/-- The argument an accepted request carries: a START_DURATION the entry's rated minutes, every other the frame's own
(R161). -/
def acceptedArg (name : ReqName) (a : Argument) (rated : Nat) : Argument :=
  match name with
  | .startDuration => { a with b0 := byteOf rated }
  | _ => a

/-- The request as it joins the pass-through queue (R161). -/
def State.passRequest (s : State) (f : Frame) (i : EntryId) (name : ReqName) : PassRequest :=
  { name := name, node := (s.entry i).node, arg := acceptedArg name f.lampArg (s.entry i).rated, entry := i,
    cln := f.lampCln, tag := f.tag, source := f.source, dest := f.dest, mark := none }

/-- What an accepted STOP_TEST does to its entry (R106, R108). -/
def State.stopAccepted (s : State) (i : EntryId) : State :=
  match (s.entry i).state with
  | .testing t => s.toEnding i { t with stopRequested := true }
  | .pending t => s.setEntryState i (.pending { t with stopRequested := true })
  | .ready => s
  | .ending _ => s
  | .recharging _ => s
  | .backoff _ => s
  | .faulted => s

/-- What an accepted request does to its entry (R105, R106, R108, R161). -/
def State.entryAccepted (s : State) (i : EntryId) (name : ReqName) : State :=
  match name with
  | .startFunction => s.setEntry i ((s.entry i).toPending .function .headend)
  | .startDuration => s.setEntry i ((s.entry i).toPending .duration .headend)
  | .stopTest => s.stopAccepted i
  | .probe => s
  | .readParam => s
  | .identify => s
  | .setParam => s
  | .setRest => s

/-- An accepted request (R161): the entry's change and the request at the tail of its line's pass-through queue. -/
def State.lampAccept (s : State) (f : Frame) (i : EntryId) (name : ReqName) : State :=
  let n := (s.entry i).line
  ((s.entryAccepted i name).joinPass n (s.passRequest f i name)).settleLine n

/-! ### Cancelling an unsent start (R107) -/

/-- Remove a head-end start from its pass-through queue: it is answered CANCELLED through the backlog (R162), and a
recorded one completes the capture CANCELLED (R167). -/
def State.cancelPassStart (s : State) (n : LineId) (i : EntryId) : State :=
  let starts := (s.line n).pass.filter (PassRequest.isStartFor i)
  let s := s.setLine n { s.line n with pass := (s.line n).pass.filter fun r => !r.isStartFor i }
  let s := starts.foldl (fun t r => t.joinBacklog n (t.passAnswer r .cancelled [])) s
  s.captureEndAll (passMarks starts) (.outcome .cancelled)

/-- Remove the unsent start of an entry from the queue that holds it, which its origin tells. -/
def State.cancelStart (s : State) (n : LineId) (i : EntryId) (origin : Origin) : State :=
  match origin with
  | .scheduler => s.removeControl n (ControlRequest.isStartFor i) (.outcome .cancelled)
  | .headend => s.cancelPassStart n i

/-- A head-end STOP_TEST cancels an unsent start (R107): the entry READY, its last block reason as it stands. -/
def State.lampCancel (s : State) (i : EntryId) : State :=
  match (s.entry i).state with
  | .pending t => ((s.cancelStart (s.entry i).line i t.origin).setEntryState i .ready).settleLine (s.entry i).line
  | _ => s

/-! ### Taking a request (R158, R162) -/

/-- The immediate answer to a LAMP request: its campus number and request code as sent, and the code. -/
def State.lampAnswer (s : State) (f : Frame) (code : LampCode) : Frame :=
  s.frameTo f.source .lampAnswer f.tag (lampAnswerBody f.lampCln f.lampCode code [])

/-- Whether a frame is a LAMP request. -/
def Frame.isLamp (f : Frame) : Bool := f.kind == .lampRequest

/-- Perform an outcome of a request that has left the receive queue. -/
def State.lampPerform (s : State) (f : Frame) (o : LampOutcome) : State :=
  match o with
  | .drop => s
  | .answer code => s.pushTx (s.lampAnswer f code)
  | .cancel i => (s.lampCancel i).pushTx (s.lampAnswer f .cancelled)
  | .accept i name => s.lampAccept f i name

/-- Take a request out of the receive queue and perform its outcome (R158). -/
def State.lampTakeFrame (s : State) (f : Frame) : State :=
  State.lampPerform { s with rx := s.rx.eraseP Frame.isLamp, lampWaiting := false } f (s.lampOutcome f)

/-- The Lamp Path turns to the oldest LAMP request (R158): an immediate answer with a full transmit queue makes it wait,
and while it waits it takes nothing until it is granted a place. -/
def State.lampTake (s : State) : State :=
  match s.rx.find? Frame.isLamp with
  | none => s
  | some f =>
    if s.lampWaiting && s.txFull then s
    else if (s.lampOutcome f).immediate && s.txFull then { s with lampWaiting := true }
    else s.lampTakeFrame f

/-- The Lamp Path is granted a place (R158): it takes the waiting request against the state as it stands. -/
def State.lampGranted (s : State) : State :=
  match s.rx.find? Frame.isLamp with
  | none => { s with lampWaiting := false }
  | some f => s.lampTakeFrame f

end Sys2Proof.Machine
end

