-- ==== Sys2Proof/Machine/Operands.lean ====
section
/-! DEFINITION. The operands of management requests as bytes: parameters and table records (section 12.3, 12.4, R169,
R187). -/

namespace Sys2Proof.Machine

/-! ### Tables (R170) -/

/-- The number of indices of a table (R170). -/
def Table.size : Table → Nat
  | .map => 240
  | .group => 32
  | .calendar => 7
  | .blackout => 16
  | .criteria => 16
  | .policy => 8
  | .line => 6
  | .bridge => 1

/-- The length of a written record (section 12.4). -/
def Table.writeLength : Table → Nat
  | .map => 28
  | .group => 13
  | .calendar => 50
  | .blackout => 9
  | .criteria => 3
  | .policy => 2
  | .line => 5
  | .bridge => 27

/-! ### Written records (section 12.4) -/

/-- Whether a bit of a byte is set. -/
def bitAt (bs : List Byte) (off bit : Nat) : Bool := (byteAt bs off).getLsbD bit

/-- A MAP record as written: 28 bytes. -/
def parseMap (b : List Byte) : MapRecord :=
  { index := natAt b 0 1, identity := bitAt b 1 0, membership := bitAt b 1 1, ratings := bitAt b 1 2,
    flags := bitAt b 1 3, history := bitAt b 1 4, inUse := yesAt b 2, cln := natAt b 3 4, line := natAt b 7 1,
    node := natAt b 8 1, group := natAt b 9 1, battery := natAt b 10 1, rated := natAt b 11 1,
    locked := bitAt b 12 0, barred := bitAt b 12 1, held := bitAt b 12 2, addedAt := timeAt b 13,
    lastFunctionEnd := timeAt b 18, lastDurationEnd := timeAt b 23 }

/-- A GROUP record: 13 bytes, the counts N, O and Q not read. -/
def parseGroup (b : List Byte) : GroupRecord :=
  { index := natAt b 0 1, quotaPercent := natAt b 1 1, weight := natAt b 2 1, occupancy := natAt b 3 1,
    functionInterval := natAt b 4 1, functionTolerance := natAt b 5 1, durationInterval := natAt b 6 2,
    durationTolerance := natAt b 8 1, rechargeHours := natAt b 9 1 }

/-- A CALENDAR record: 50 bytes, the written mark not read. -/
def parseCalendar (b : List Byte) : CalendarRecord :=
  { row := natAt b 0 1, masks := Vector.ofFn fun (k : Fin 48) => byteAt b (2 + k.val) }

/-- A BLACKOUT record: 9 bytes. -/
def parseBlackout (b : List Byte) : Blackout :=
  { start := natAt b 0 4, stop := natAt b 4 4, classes := byteAt b 8 }

/-- A LINE record: 5 bytes. -/
def parseLine (b : List Byte) : LineRecord :=
  { line := natAt b 0 1, replyWindow := natAt b 1 1, attempts := natAt b 2 1, pollPeriod := natAt b 3 2 }

/-- A BRIDGE record: 27 bytes, the strap number and the station address not read. -/
def parseBridge (b : List Byte) : BridgeRecord :=
  { index := natAt b 0 1, schedulerEnable := yesAt b 1, passInterval := natAt b 2 1, grace := natAt b 3 1,
    maxAttempts := natAt b 4 1, backoffBase := natAt b 5 1, debounce := natAt b 6 1, holdOff := natAt b 7 2,
    lightingType := BitVec.ofNat 16 (natAt b 9 2), filterMode := natAt b 11 1,
    reportAddress := BitVec.ofNat 48 (natAt b 12 6), notifyMask := BitVec.ofNat 14 (natAt b 18 2) }

/-- A record of a table. -/
def parseRecord (t : Table) (b : List Byte) : TableRecord :=
  match t with
  | .map => .map (parseMap b)
  | .group => .group (parseGroup b)
  | .calendar => .calendar (parseCalendar b)
  | .blackout => .blackout (parseBlackout b)
  | .criteria => .criteria (natAt b 0 1) (natAt b 1 2)
  | .policy => .policy (natAt b 0 1) (yesAt b 1)
  | .line => .line (parseLine b)
  | .bridge => .bridge (parseBridge b)

/-- `k` records of a table, one after another. -/
def parseRecords (t : Table) : Nat → List Byte → List TableRecord
  | 0, _ => []
  | k + 1, b => parseRecord t (b.take t.writeLength) :: parseRecords t k (b.drop t.writeLength)

/-- The records of a WRITE_TABLE body; a table code not known leaves them unread. -/
def parseWrite (b : List Byte) : List TableRecord :=
  match Table.ofCode (natAt b 1 1) with
  | some t => parseRecords t (natAt b 2 1) (b.drop 3)
  | none => []

/-! ### Requests (section 12.3) -/

/-- The request a MGMT body names, or none when its request code is not known (R169). -/
def parseMgmt (b : List Byte) : Option MgmtRequest :=
  match natAt b 0 1 with
  | 1 => some (.readTable (byteAt b 1) (natAt b 2 1) (natAt b 3 1))
  | 2 => some (.writeTable (byteAt b 1) (parseWrite b))
  | 3 => some (.setClock (natAt b 1 4))
  | 4 => some (.readStatus (yesAt b 1))
  | 16 => some .schedOn
  | 17 => some .schedOff
  | 18 => some (.clearFault (natAt b 1 1))
  | 19 => some (.setHold (natAt b 1 1))
  | 20 => some (.clearHold (natAt b 1 1))
  | 21 => some (.clearTouched (natAt b 1 1))
  | 22 => some (.armCapture (natAt b 1 4) (byteAt b 5) (byteAt b 6))
  | 23 => some .disarmCapture
  | 24 => some (.lineAbort (natAt b 1 1))
  | 25 => some (.lineReset (natAt b 1 1))
  | 26 => some .bridgeReset
  | 27 => some .saveImage
  | 28 => some (.clearEvents (BitVec.ofNat 14 (natAt b 1 2)))
  | _ => none

/-- The request code of a request. -/
def MgmtRequest.code : MgmtRequest → Nat
  | .readTable _ _ _ => 1
  | .writeTable _ _ => 2
  | .setClock _ => 3
  | .readStatus _ => 4
  | .schedOn => 16
  | .schedOff => 17
  | .clearFault _ => 18
  | .setHold _ => 19
  | .clearHold _ => 20
  | .clearTouched _ => 21
  | .armCapture _ _ _ => 22
  | .disarmCapture => 23
  | .lineAbort _ => 24
  | .lineReset _ => 25
  | .bridgeReset => 26
  | .saveImage => 27
  | .clearEvents _ => 28

/-- The body length a WRITE_TABLE must have: that of its table and record count, which is 0 to 16; with a table code not
known only that its first 3 bytes are there (R187). -/
def writeLengthOk (b : List Byte) : Bool :=
  decide (3 ≤ b.length) &&
    match Table.ofCode (natAt b 1 1) with
    | some t => decide (natAt b 2 1 ≤ 16) && b.length == 3 + natAt b 2 1 * t.writeLength
    | none => true

/-- Whether a MGMT request body has the length its code gives it (R187, check 5). -/
def mgmtLengthOk (b : List Byte) : Bool :=
  decide (1 ≤ b.length) &&
    match natAt b 0 1 with
    | 1 => b.length == 4
    | 2 => writeLengthOk b
    | 3 => b.length == 5
    | 4 => b.length == 2
    | 16 => b.length == 1
    | 17 => b.length == 1
    | 18 => b.length == 2
    | 19 => b.length == 2
    | 20 => b.length == 2
    | 21 => b.length == 2
    | 22 => b.length == 7
    | 23 => b.length == 1
    | 24 => b.length == 2
    | 25 => b.length == 2
    | 26 => b.length == 1
    | 27 => b.length == 1
    | 28 => b.length == 3
    | _ => true

end Sys2Proof.Machine
end

