-- ==== Sys2Proof/Machine/Trunk.lean ====
section
/-! DEFINITION. The Trunk Port: the arrival checks, the two queues, and the rotation of transmit places (R151 to R156,
R187, R184's owed notice). -/

namespace Sys2Proof.Machine

/-! ### Arrival (R152, R187) -/

/-- A kind code of the trunk header. -/
def FrameKind.ofCode : Nat → Option FrameKind
  | 1 => some .lampRequest
  | 2 => some .lampAnswer
  | 3 => some .mgmtRequest
  | 4 => some .mgmtAnswer
  | 5 => some .notice
  | _ => none

/-- The destination addresses a filter mode admits (the second table of R152). -/
def State.admits (s : State) (dest : Mac) : Bool :=
  match s.settings.filterMode with
  | 0 => dest == s.stationAddress
  | 1 => dest == s.stationAddress || dest == broadcastAddress
  | 2 => dest == s.stationAddress || dest == broadcastAddress || dest == groupAddress
  | 3 => true

/-- The body length fits the kind (R187, check 5). The other kinds are discarded at the next check in any case. -/
def bodyLengthOk (kind : FrameKind) (body : List Byte) : Bool :=
  match kind with
  | .lampRequest => body.length == 9
  | .mgmtRequest => mgmtLengthOk body
  | .lampAnswer => true
  | .mgmtAnswer => true
  | .notice => true

/-- The framing checks on the bytes after the type field (R187): the kind and the body of a frame that passes. -/
def framing (p : List Byte) : Option (FrameKind × List Byte) :=
  if p.length < 7 then none
  else if byteAt p 0 ≠ 1 then none
  else
    match FrameKind.ofCode (natAt p 1 1) with
    | none => none
    | some kind =>
      if (p.drop 7).length < natAt p 5 2 then none
      else
        let body := (p.drop 7).take (natAt p 5 2)
        if bodyLengthOk kind body then some (kind, body) else none

/-- The last three checks of R152: kind, bridge number, MGMT addressing. -/
def State.forBridge (s : State) (kind : FrameKind) (bridge : Byte) (dest : Mac) : Bool :=
  (kind == .lampRequest || kind == .mgmtRequest) && (bridge == 0 || bridge == s.strap) &&
    (kind != .mgmtRequest || dest == s.stationAddress)

/-- The frame that joins the receive queue when an arriving frame passes every check of R152, in order. -/
def State.arrival (s : State) (f : TrunkFrame) : Option Frame :=
  if f.fcsAgrees = false then none
  else if f.etype ≠ s.settings.lightingType then none
  else if s.admits f.dest = false then none
  else
    match framing f.payload with
    | none => none
    | some (kind, body) =>
      if s.forBridge kind (byteAt f.payload 4) f.dest then
        some { dest := f.dest, source := f.source, etype := f.etype, kind := kind,
               tag := BitVec.ofNat 16 (natAt f.payload 2 2), bridge := byteAt f.payload 4, body := body }
      else none

/-- A frame that passed the checks joins the receive queue at its tail, or is discarded at a full one and
INBOUND_DROPPED is raised (R154). -/
def State.joinRx (s : State) (f : Frame) : State :=
  if 16 ≤ s.rx.length then s.raise .inboundDropped else { s with rx := s.rx ++ [f] }

/-- A frame arrives (R152); a closed port takes none (R151). -/
def State.frameArrival (s : State) (f : TrunkFrame) : State :=
  if s.portOpen then
    match s.arrival f with
    | some g => s.joinRx g
    | none => s
  else s

/-! ### Placing into the transmit queue -/

/-- The answer at the head of a backlog enters the transmit queue; a HOLDING engine whose backlog empties enters GAP
(R140). -/
def State.placeBacklog (s : State) (n : LineId) : State :=
  match (s.line n).backlog with
  | [] => s
  | f :: rest =>
    let l := s.line n
    (s.pushTx f).setLine n { l with
      backlog := rest, engine := if rest.isEmpty && l.engine.isHolding then .gap else l.engine }

/-- The answer of ANSWERING enters the transmit queue, and the Management Engine returns to IDLE (R168). -/
def State.placeMgmt (s : State) : State :=
  match s.mgmt with
  | .answering f => { s.pushTx f with mgmt := .idle }
  | .idle => s
  | .working _ _ => s

/-! ### The rotation (R156) -/

/-- The waiters in their rotation order. -/
def Waiter.all : List Waiter :=
  [.lampPath, .management, .backlog 0, .backlog 1, .backlog 2, .backlog 3, .backlog 4, .backlog 5, .eventUnit]

/-- The place of a waiter in the rotation. -/
def Waiter.place : Waiter → Nat
  | .lampPath => 0
  | .management => 1
  | .backlog n => 2 + n.val
  | .eventUnit => 8

/-- The waiters after one, ending with itself. -/
def Waiter.rotation (w : Waiter) : List Waiter := Waiter.all.drop (w.place + 1) ++ Waiter.all.take (w.place + 1)

/-- Whether the Management Engine is ANSWERING. -/
def MgmtState.isAnswering : MgmtState → Bool
  | .answering _ => true
  | _ => false

/-- Whether a waiter has a frame to place, or one that will need a place. -/
def State.waits (s : State) : Waiter → Bool
  | .lampPath => s.lampWaiting
  | .management => s.mgmt.isAnswering
  | .backlog n => !(s.line n).backlog.isEmpty
  | .eventUnit => s.noticePending

/-- The waiter to be granted: the first that waits after the one last granted. -/
def State.nextWaiter (s : State) : Option Waiter := s.rotation.rotation.find? s.waits

/-- The granted waiter places its frame. -/
def State.serve (s : State) : Waiter → State
  | .lampPath => s.lampGranted
  | .management => s.placeMgmt
  | .backlog n => s.placeBacklog n
  | .eventUnit => s.buildNotice

/-- A freed place is granted, and the rotation pointer moves to the granted waiter. -/
def State.grantPlace (s : State) : State :=
  match s.nextWaiter with
  | some w => State.serve { s with rotation := w } w
  | none => s

/-- The grant of a freed place; a place the Lamp Path released is granted again at once (R158). -/
def State.grantPlaces (s : State) : State :=
  let t := s.grantPlace
  if t.txFull then t else t.grantPlace

/-! ### Sending (R155, R184) -/

/-- When the queued NOTICE has left and one is owed, the owed one becomes pending (R184, log 18). -/
def State.noticeSent (s : State) (f : Frame) : State :=
  if f.isNotice && s.noticeOwed then { s with noticeOwed := false, noticePending := true } else s

/-- Whether the frame at the head is being sent: the port is open, the link is up, a frame stands there (log 16). -/
def State.sending (s : State) : Bool := s.portOpen && s.linkUp && !s.tx.isEmpty

/-- The frame at the head has been sent: its place frees, and a place of a full queue is granted by rotation (R155,
R156). -/
def State.frameSent (s : State) : State :=
  if s.sending then
    match s.tx with
    | [] => s
    | f :: rest =>
      let t := State.noticeSent { s with tx := rest } f
      if s.txFull then t.grantPlaces else t
  else s

/-- An answer at the head of a backlog finds a free place (R140, log 27). -/
def State.backlogPlace (s : State) (n : LineId) : State := if s.txFull then s else s.placeBacklog n

/-- An answer of ANSWERING finds a free place (log 27). -/
def State.mgmtPlace (s : State) : State := if s.txFull then s else s.placeMgmt

end Sys2Proof.Machine
end

