-- ==== Sys2Proof/Machine/Tables.lean ====
section
/-! DEFINITION. The rules of the table records: what a WRITE_TABLE record of each table does (R14 to R19, R24, R25, R44,
R48, R49, R111, R115, R145, R173), and the records a READ_TABLE returns (section 12.4). A record rule answers the code of
a refusal, in which nothing changes, or the state with the record taken. -/

namespace Sys2Proof.Machine

/-! ### MAP records (R14 to R19) -/

/-- A rated-minutes value brought to a valid value (R16). -/
def roundRated (v : Nat) : Nat := if v < 30 then 30 else if 240 < v then 240 else v / 30 * 30

/-- A record for a free entry is a creation when it selects identity with in use yes (R14). -/
def MapRecord.creates (r : MapRecord) (e : Entry) : Bool := !e.inUse && r.identity && r.inUse

/-- A record for an in-use entry is a removal when it selects identity with in use no (R17). -/
def MapRecord.removes (r : MapRecord) (e : Entry) : Bool := e.inUse && r.identity && !r.inUse

/-- Identity values out of range (R15, check 2). -/
def MapRecord.identityBad (r : MapRecord) : Bool :=
  r.inUse && (r.cln == 0 || decide (999999 < r.cln) || decide (5 < r.line) || r.node == 0 || decide (40 < r.node))

/-- A value out of range in a selected group, all groups of a creation being selected (R15, check 2; R17). A record
with identity selected and in use no is not value-checked at all (log 35); any other record for a free entry is, though it
is no creation and leaves the entry free (log 37). -/
def MapRecord.valueBad (r : MapRecord) (e : Entry) : Bool :=
  !(r.identity && !r.inUse) &&
    ((r.identity && r.identityBad) || ((r.membership || r.creates e) && decide (31 < r.group)) ||
      ((r.ratings || r.creates e) && decide (15 < r.battery)))

/-- The record changes the line or node of an in-use entry (R18). -/
def MapRecord.moves (r : MapRecord) (e : Entry) : Bool :=
  e.inUse && r.identity && r.inUse && (r.line != e.line.val || r.node != e.node)

/-- The record changes the group of an in-use entry (R18); one that writes the present group changes none (log 33). -/
def MapRecord.changesGroup (r : MapRecord) (e : Entry) : Bool := e.inUse && r.membership && r.group != e.group.val

/-- A selected group that the entry's present state does not allow (R15, check 3; R16 to R19). -/
def MapRecord.busy (r : MapRecord) (e : Entry) : Bool :=
  (e.state.underTest && (r.removes e || r.moves e || r.changesGroup e || (e.inUse && r.ratings))) ||
    (e.state.outOfService && e.inUse && r.history)

/-- Whether an in-use entry has an identity of a record: its campus number, or its line and node. -/
def Entry.clashes (e : Entry) (r : MapRecord) : Bool :=
  e.inUse && (e.cln == r.cln || (e.line.val == r.line && e.node == r.node))

/-- The record would leave two in-use entries with one campus number or one line and node (R3; R15, check 4). -/
def State.duplicates (s : State) (i : EntryId) (r : MapRecord) : Bool :=
  r.identity && r.inUse && allEntries.any fun j => j != i && (s.entry j).clashes r

/-- A line number as a line; out of range it is not used. -/
def lineOf (v : Nat) : LineId := if h : v < 6 then ⟨v, h⟩ else 0

/-- A group number as a group. -/
def groupIdOf (v : Nat) : Fin 32 := if h : v < 32 then ⟨v, h⟩ else 0

/-- A battery class number as a class. -/
def batteryOf (v : Nat) : Fin 16 := if h : v < 16 then ⟨v, h⟩ else 0

/-- The entry a creation makes (R17). -/
def MapRecord.created (r : MapRecord) : Entry :=
  { Entry.free with
    inUse := true, cln := r.cln, line := lineOf r.line, node := r.node, group := groupIdOf r.group,
    battery := batteryOf r.battery, rated := roundRated r.rated, locked := r.locked, barred := r.barred,
    held := r.held, addedAt := r.addedAt, lastFunctionEnd := r.lastFunctionEnd,
    lastDurationEnd := r.lastDurationEnd }

/-- The identity group of a change. -/
def MapRecord.writeIdentity (r : MapRecord) (e : Entry) : Entry :=
  if r.identity then { e with cln := r.cln, line := lineOf r.line, node := r.node } else e

/-- The membership group. -/
def MapRecord.writeMembership (r : MapRecord) (e : Entry) : Entry :=
  if r.membership then { e with group := groupIdOf r.group } else e

/-- The ratings group. -/
def MapRecord.writeRatings (r : MapRecord) (e : Entry) : Entry :=
  if r.ratings then { e with battery := batteryOf r.battery, rated := roundRated r.rated } else e

/-- The flags group. -/
def MapRecord.writeFlags (r : MapRecord) (e : Entry) : Entry :=
  if r.flags then { e with locked := r.locked, barred := r.barred, held := r.held } else e

/-- The history group; each end time written clears its overdue-noted flag (R19). -/
def MapRecord.writeHistory (r : MapRecord) (e : Entry) : Entry :=
  if r.history then
    { e with
      addedAt := r.addedAt, lastFunctionEnd := r.lastFunctionEnd, lastDurationEnd := r.lastDurationEnd
      overdueFunction := false, overdueDuration := false }
  else e

/-- An in-use entry as a taken change leaves it: the selected groups written whole, touched cleared (R14). -/
def MapRecord.changed (r : MapRecord) (e : Entry) : Entry :=
  { r.writeHistory (r.writeFlags (r.writeRatings (r.writeMembership (r.writeIdentity e)))) with touched := false }

/-- The entry as a taken record leaves it (R14, R17). -/
def MapRecord.applied (r : MapRecord) (e : Entry) : Entry :=
  if e.inUse then (if r.removes e then .free else r.changed e)
  else if r.creates e then r.created
  else e

/-- The checks of R15 after the index check. -/
def State.mapCheck (s : State) (i : EntryId) (r : MapRecord) : Option MgmtCode :=
  if r.valueBad (s.entry i) then some .badValue
  else if r.busy (s.entry i) then some .busy
  else if s.duplicates i r then some .duplicate
  else none

/-- One MAP record (R15). -/
def State.takeMap (s : State) (r : MapRecord) : Except MgmtCode State :=
  if h : r.index < 240 then
    let i : EntryId := ⟨r.index, h⟩
    match s.mapCheck i r with
    | some code => .error code
    | none => .ok (s.setEntry i (r.applied (s.entry i)))
  else .error .indexRange

/-! ### GROUP records (R24, R25) -/

/-- A tolerance: clamped, then lowered to half its stored interval (R25). -/
def clampTolerance (limit v interval : Nat) : Nat := min (min v limit) (interval / 2)

/-- The settings a GROUP record stores (R25). -/
def GroupRecord.settings (r : GroupRecord) (occupancy : Fin 8) : GroupSettings :=
  { quotaPercent := min r.quotaPercent 100
    weight := clamp 1 15 r.weight
    occupancy := occupancy
    functionInterval := clamp 7 93 r.functionInterval
    functionTolerance := clampTolerance 14 r.functionTolerance (clamp 7 93 r.functionInterval)
    durationInterval := clamp 90 730 r.durationInterval
    durationTolerance := clampTolerance 60 r.durationTolerance (clamp 90 730 r.durationInterval)
    rechargeHours := clamp 1 48 r.rechargeHours }

/-- One GROUP record (R24). -/
def State.takeGroup (s : State) (r : GroupRecord) : Except MgmtCode State :=
  if hi : r.index < 32 then
    if ho : r.occupancy < 8 then .ok { s with groups := s.groups.set r.index (r.settings ⟨r.occupancy, ho⟩) }
    else .error .badValue
  else .error .indexRange

/-! ### CALENDAR, CRITERIA, POLICY and LINE records (R44, R111, R115, R145) -/

/-- One CALENDAR record (R44): the 48 masks replaced, the written mark set. -/
def State.takeCalendar (s : State) (r : CalendarRecord) : Except MgmtCode State :=
  if h : r.row < 7 then .ok { s with rows := s.rows.set r.row { masks := r.masks, written := true } }
  else .error .indexRange

/-- A criteria value as stored (R111). -/
def clampCriteria (v : Nat) : Nat := if v = 0 then 0 else clamp 800 3600 v

/-- One CRITERIA record (R111). -/
def State.takeCriteria (s : State) (battery millivolts : Nat) : Except MgmtCode State :=
  if h : battery < 16 then .ok { s with criteria := s.criteria.set battery (clampCriteria millivolts) }
  else .error .indexRange

/-- One POLICY record (R115). -/
def State.takePolicy (s : State) (index : Nat) (halt : Bool) : Except MgmtCode State :=
  if h : index < 8 then .ok { s with policy := s.policy.set index halt } else .error .indexRange

/-- The settings a LINE record stores (R145). -/
def LineRecord.settings (r : LineRecord) : LineSettings :=
  { replyWindow := clamp 10 100 r.replyWindow, attempts := clamp 1 4 r.attempts,
    pollPeriod := clamp 15 900 r.pollPeriod }

/-- One LINE record (R145). -/
def State.takeLine (s : State) (r : LineRecord) : Except MgmtCode State :=
  if h : r.line < 6 then
    .ok (s.setLine ⟨r.line, h⟩ { s.line ⟨r.line, h⟩ with settings := r.settings })
  else .error .indexRange

/-! ### The BRIDGE record (R173) -/

/-- The settings a BRIDGE record stores (R173). -/
def BridgeRecord.settings (r : BridgeRecord) (filterMode : Fin 4) : BridgeSettings :=
  { schedulerEnable := r.schedulerEnable
    passInterval := clamp 1 15 r.passInterval
    grace := clamp 5 60 r.grace
    maxAttempts := clamp 1 7 r.maxAttempts
    backoffBase := clamp 1 240 r.backoffBase
    debounce := clamp 2 60 r.debounce
    holdOff := min r.holdOff 1440
    lightingType := r.lightingType
    filterMode := filterMode
    reportAddress := r.reportAddress
    notifyMask := r.notifyMask }

/-- A Scheduler that has become unarmed ends its pass (R71). -/
def State.endIfUnarmed (s : State) : State := if s.armed then s else s.endPass

/-- A report address of all zero clears both notice marks (R184). -/
def State.dropNotice (s : State) : State :=
  if s.settings.reportAddress = 0 then { s with noticePending := false, noticeOwed := false } else s

/-- One BRIDGE record (R173). -/
def State.takeBridge (s : State) (r : BridgeRecord) : Except MgmtCode State :=
  if r.index ≠ 0 then .error .indexRange
  else if r.lightingType.toNat < 0x0600 then .error .badValue
  else if h : r.filterMode < 4 then
    .ok (State.endIfUnarmed { s with settings := r.settings ⟨r.filterMode, h⟩ }).dropNotice
  else .error .badValue

/-! ### Any record -/

/-- One BLACKOUT record: an insertion, or with an empty class set a removal (R48, R49). -/
def State.takeBlackout (s : State) (b : Blackout) : Except MgmtCode State :=
  if b.classes = 0 then s.blackoutRemove b else s.blackoutInsert b

/-- One record of any table. -/
def State.takeRecord (s : State) : TableRecord → Except MgmtCode State
  | .map r => s.takeMap r
  | .group r => s.takeGroup r
  | .calendar r => s.takeCalendar r
  | .blackout b => s.takeBlackout b
  | .criteria c v => s.takeCriteria c v
  | .policy k h => s.takePolicy k h
  | .line r => s.takeLine r
  | .bridge r => s.takeBridge r

/-! ### Read records (section 12.4) -/

/-- The flags byte of a MAP record: locked, barred, held, and on a read touched. -/
def Entry.flagsByte (e : Entry) : Byte := bits4 e.locked e.barred e.held e.touched

/-- The first 28 bytes of a MAP read record: the written record with selection 0. -/
def Entry.writtenPart (e : Entry) (i : EntryId) : List Byte :=
  [byteOf i.val, 0, boolByte e.inUse] ++ beBytes 4 e.cln ++
    [byteOf e.line.val, byteOf e.node, byteOf e.group.val, byteOf e.battery.val, byteOf e.rated, e.flagsByte] ++
    timeField e.addedAt ++ timeField e.lastFunctionEnd ++ timeField e.lastDurationEnd

/-- The current test in a MAP read record: 15 bytes (R20). -/
def testField : Option CurrentTest → List Byte
  | none => 0 :: filler 1 14
  | some t =>
    [1, byteOf t.kind.code, byteOf t.origin.code] ++ timeField t.startedAt ++
      [byteOf t.remaining, byteOf t.remainingAtStart, byteOf t.missed] ++ beBytes 2 t.pollDue ++
      [boolByte t.stopRequested, boolByte t.startSent]

/-- Recharge left as read: 0 means absent. -/
def EntryState.rechargeLeft : EntryState → Nat
  | .recharging left => left
  | _ => 0

/-- Retry left as read: 0 means absent. -/
def EntryState.retryLeft : EntryState → Nat
  | .backoff left => left
  | _ => 0

/-- The last verdict in a record: its code and kind; a code of 0 means absent. -/
def verdictField : Option (Verdict × Kind) → List Byte
  | none => 0 :: filler 1 1
  | some (v, k) => [byteOf v.code, byteOf k.code]

/-- The last block reason in a record: 0 means absent. -/
def blockField : Option BlockReason → Byte
  | none => 0
  | some r => byteOf r.code

/-- The history at the end of a MAP read record. -/
def Entry.historyPart (e : Entry) : List Byte :=
  verdictField e.lastVerdict ++
    [blockField e.lastBlock, bits4 e.overdueFunction e.overdueDuration false false, byteOf e.attempts]

/-- A MAP read record: 53 bytes. -/
def Entry.readRecord (e : Entry) (i : EntryId) : List Byte :=
  e.writtenPart i ++ [byteOf e.state.code] ++ testField e.state.test ++ beBytes 2 e.state.rechargeLeft ++
    beBytes 2 e.state.retryLeft ++ e.historyPart

/-- A GROUP record with given counts: 13 bytes. -/
def GroupSettings.record (g : GroupSettings) (k n o q : Nat) : List Byte :=
  [byteOf k, byteOf g.quotaPercent, byteOf g.weight, byteOf g.occupancy.val, byteOf g.functionInterval,
   byteOf g.functionTolerance] ++ beBytes 2 g.durationInterval ++
    [byteOf g.durationTolerance, byteOf g.rechargeHours, byteOf n, byteOf o, byteOf q]

/-- A CALENDAR record with a given written byte: 50 bytes. -/
def CalendarRow.record (r : CalendarRow) (k : Nat) (written : Byte) : List Byte :=
  byteOf k :: written :: r.masks.toList

/-- A BLACKOUT record: 9 bytes. -/
def Blackout.record (b : Blackout) : List Byte := beBytes 4 b.start ++ beBytes 4 b.stop ++ [b.classes]

/-- A LINE record: 5 bytes. -/
def LineSettings.record (l : LineSettings) (k : Nat) : List Byte :=
  [byteOf k, byteOf l.replyWindow, byteOf l.attempts] ++ beBytes 2 l.pollPeriod

/-- The BRIDGE record: 27 bytes. -/
def State.bridgeRecord (s : State) : List Byte :=
  let b := s.settings
  [0, boolByte b.schedulerEnable, byteOf b.passInterval, byteOf b.grace, byteOf b.maxAttempts, byteOf b.backoffBase,
   byteOf b.debounce] ++ beBytes 2 b.holdOff ++ beBytes 2 b.lightingType.toNat ++ [byteOf b.filterMode.val] ++
    beBytes 6 b.reportAddress.toNat ++ beBytes 2 b.notifyMask.toNat ++ [s.strap] ++
    beBytes 6 s.stationAddress.toNat

/-- The record a READ_TABLE returns for an index of a table (R20, R35, R46, R51, R111, R115, R145, R173). -/
def State.readRecord (s : State) (t : Table) (k : Nat) : List Byte :=
  match t with
  | .map => if h : k < 240 then (s.entry ⟨k, h⟩).readRecord ⟨k, h⟩ else []
  | .group =>
    if h : k < 32 then
      (s.group ⟨k, h⟩).record k (s.members ⟨k, h⟩) (s.outOfService ⟨k, h⟩) (s.quota ⟨k, h⟩)
    else []
  | .calendar => if h : k < 7 then s.rows[k].record k (boolByte s.rows[k].written) else []
  | .blackout => match s.blackouts[k]? with
    | some b => b.record
    | none => []
  | .criteria => if h : k < 16 then byteOf k :: beBytes 2 s.criteria[k] else []
  | .policy => if h : k < 8 then [byteOf k, boolByte s.policy[k]] else []
  | .line => if h : k < 6 then (s.line ⟨k, h⟩).settings.record k else []
  | .bridge => s.bridgeRecord

end Sys2Proof.Machine
end

