-- ==== Sys2Proof/Machine/Management.lean ====
section
/-! DEFINITION. The Management Engine: taking a request, answering it, the table walks, the clock, the status and the
control operations (spec/10, R8, R9, R40, R70, R71, R117, R164). -/

namespace Sys2Proof.Machine

/-! ### Taking a request and answering (R168, R169) -/

/-- A MGMT answer: request code, answer code, fields (section 12.3). -/
def State.mgmtAnswer (s : State) (who : Requester) (request : Nat) (code : MgmtCode) (fields : List Byte) : Frame :=
  s.frameTo who.address .mgmtAnswer who.tag (byteOf request :: byteOf code.code :: fields)

/-- A request has been performed and its answer is built: it enters the transmit queue if a place is free, the engine
IDLE; otherwise the engine enters ANSWERING (R168). -/
def State.finish (s : State) (who : Requester) (request : Nat) (code : MgmtCode) (fields : List Byte) : State :=
  if s.txFull then { s with mgmt := .answering (s.mgmtAnswer who request code fields) }
  else { s.pushTx (s.mgmtAnswer who request code fields) with mgmt := .idle }

/-- Whether the Management Engine is IDLE. -/
def MgmtState.isIdle : MgmtState → Bool
  | .idle => true
  | _ => false

/-- Whether a frame is a MGMT request. -/
def Frame.isMgmt (f : Frame) : Bool := f.kind == .mgmtRequest

/-- Whom the answer to a request frame goes to. -/
def Frame.requester (f : Frame) : Requester := { address := f.source, tag := f.tag }

/-- A request frame taken out of the receive queue: an unknown request name is answered BAD_VALUE, any other is in hand
(R168, R169). -/
def State.mgmtTakeFrame (s : State) (f : Frame) : State :=
  let t := { s with rx := s.rx.eraseP Frame.isMgmt }
  match parseMgmt f.body with
  | some r => { t with mgmt := .working f.requester (.request r) }
  | none => t.finish f.requester (natAt f.body 0 1) .badValue []

/-- In IDLE the engine takes the oldest MGMT request (R168). -/
def State.mgmtTake (s : State) : State :=
  if s.mgmt.isIdle then
    match s.rx.find? Frame.isMgmt with
    | some f => s.mgmtTakeFrame f
    | none => s
  else s

/-! ### READ_TABLE (R171) -/

/-- The table code, the number of records and the records of an answer. -/
def readFields (table : Byte) (records : List (List Byte)) : List Byte :=
  table :: byteOf records.length :: records.flatten

/-- The blackout entries a read returns: from a position on, up to a count (R51). -/
def State.blackoutRead (s : State) (first count : Nat) : List (List Byte) :=
  ((s.blackouts.drop first).take count).map Blackout.record

/-- A READ_TABLE in hand is checked and begun (R171): a read of BLACKOUT, whose answer shows the list as it stood at one
moment (R51), and a read of no record are answered at once; of the other tables the records follow one by one (log 7). -/
def State.readBegin (s : State) (who : Requester) (table : Byte) (first count : Nat) : State :=
  match Table.ofCode table.toNat with
  | none => s.finish who 1 .unknownTable (readFields table [])
  | some t =>
    if t.size ≤ first then s.finish who 1 .indexRange (readFields table [])
    else
      match t with
      | .blackout => s.finish who 1 .ok (readFields table (s.blackoutRead first (min count 16)))
      | t =>
        if min (min count 16) (t.size - first) = 0 then s.finish who 1 .ok (readFields table [])
        else { s with mgmt := .working who (.reading t first (min (min count 16) (t.size - first)) []) }

/-- A READ_TABLE goes on by one record; with the last one it is answered. -/
def State.readOne (s : State) (who : Requester) (t : Table) (next left : Nat) (got : List (List Byte)) : State :=
  if left ≤ 1 then s.finish who 1 .ok (readFields (byteOf t.code) (got ++ [s.readRecord t next]))
  else { s with mgmt := .working who (.reading t (next + 1) (left - 1) (got ++ [s.readRecord t next])) }

/-- A step of the READ_TABLE in hand. -/
def State.readStep (s : State) : State :=
  match s.mgmt with
  | .working who (.request (.readTable table first count)) => s.readBegin who table first count
  | .working who (.reading t next left got) => s.readOne who t next left got
  | _ => s

/-! ### WRITE_TABLE (R172) -/

/-- A WRITE_TABLE is checked, and its walk begins (R172). -/
def State.writeBegin (s : State) (who : Requester) (table : Byte) (records : List TableRecord) : State :=
  if s.imageBusy then s.finish who 2 .imageBusy [Config.unexaminedPosition]
  else
    match Table.ofCode table.toNat with
    | none => s.finish who 2 .unknownTable [Config.unexaminedPosition]
    | some t =>
      if records.isEmpty then s.finish who 2 .ok [0]
      else { s with mgmt := .working who (.writing t records 0) }

/-- One record of a walk has been taken or refused (R172): the walk stops at a refusal with its position, ends with the
number taken, or goes on. -/
def State.writeOne (s : State) (who : Requester) (t : Table) (rest : List TableRecord) (taken : Nat) :
    Except MgmtCode State → State
  | .error code => s.finish who 2 code [byteOf (taken + 1)]
  | .ok s' =>
    if rest.isEmpty then s'.finish who 2 .ok [byteOf (taken + 1)]
    else { s' with mgmt := .working who (.writing t rest (taken + 1)) }

/-- The step of the write in hand whose next record satisfies a test, the record dealt with by the rules of its table. -/
def State.writeStep (s : State) (mine : TableRecord → Bool) : State :=
  match s.mgmt with
  | .working who (.writing t (r :: rest) taken) =>
    if mine r then s.writeOne who t rest taken (s.takeRecord r) else s
  | _ => s

/-- Whether a record is a MAP record. -/
def TableRecord.isMap : TableRecord → Bool
  | .map _ => true
  | _ => false

/-- Whether a record is a GROUP record. -/
def TableRecord.isGroup : TableRecord → Bool
  | .group _ => true
  | _ => false

/-- Whether a record is a CALENDAR record. -/
def TableRecord.isCalendar : TableRecord → Bool
  | .calendar _ => true
  | _ => false

/-- Whether a record is a BLACKOUT record with classes. -/
def TableRecord.isInsertion : TableRecord → Bool
  | .blackout b => b.classes != 0
  | _ => false

/-- Whether a record is a BLACKOUT record without classes. -/
def TableRecord.isRemoval : TableRecord → Bool
  | .blackout b => b.classes == 0
  | _ => false

/-- Whether a record is a CRITERIA record. -/
def TableRecord.isCriteria : TableRecord → Bool
  | .criteria _ _ => true
  | _ => false

/-- Whether a record is a POLICY record. -/
def TableRecord.isPolicy : TableRecord → Bool
  | .policy _ _ => true
  | _ => false

/-- Whether a record is a LINE record. -/
def TableRecord.isLine : TableRecord → Bool
  | .line _ => true
  | _ => false

/-- Whether a record is a BRIDGE record. -/
def TableRecord.isBridge : TableRecord → Bool
  | .bridge _ => true
  | _ => false

/-! ### Requests performed in one step -/

/-- The request in hand that is not yet begun, with its requester. -/
def State.inHand (s : State) : Option (Requester × MgmtRequest) :=
  match s.mgmt with
  | .working who (.request r) => some (who, r)
  | _ => none

/-- The clock loaded by SET_CLOCK (R40). -/
def State.loadClock (s : State) (m : Nat) : State :=
  State.clearFlags { s with minute := m, seconds := 0, clockValid := true } EventFlag.clockNeeded.mask

/-- SET_CLOCK (R40, R174). -/
def State.setClock (s : State) (who : Requester) (m : Nat) : State :=
  if s.imageBusy then s.finish who 3 .imageBusy [] else (s.loadClock m).finish who 3 .ok []

/-- READ_STATUS (R174): with take, the flags the answer carries are cleared in the same step. -/
def State.readStatus (s : State) (who : Requester) (take : Bool) : State :=
  (if take then s.clearFlags s.flags else s).finish who 4 .ok (s.statusBlock ++ s.capture.block)

/-- SCHED_ON (R70). -/
def State.schedOn (s : State) (who : Requester) : State :=
  State.finish { s with settings := { s.settings with schedulerEnable := true } } who 16 .ok []

/-- SCHED_OFF (R70): the Scheduler is unarmed, and a pass in flight ends (R71). -/
def State.schedOff (s : State) (who : Requester) : State :=
  (State.endPass { s with settings := { s.settings with schedulerEnable := false } }).finish who 17 .ok []

/-- A control operation on one entry index: INDEX_RANGE above 239, BAD_VALUE for a free entry (R175). -/
def State.onEntry (s : State) (who : Requester) (request index : Nat) (act : EntryId → MgmtCode × State) : State :=
  if h : index < 240 then
    if (s.entry ⟨index, h⟩).inUse then (act ⟨index, h⟩).2.finish who request (act ⟨index, h⟩).1 []
    else s.finish who request .badValue []
  else s.finish who request .indexRange []

/-- CLEAR_FAULT on an in-use entry (R117). -/
def State.clearFaultOf (s : State) (i : EntryId) : MgmtCode × State :=
  match (s.entry i).state with
  | .faulted => (.ok, s.setEntry i { s.entry i with state := .ready, attempts := 0 })
  | _ => (.busy, s)

/-- CLEAR_FAULT (R117). -/
def State.clearFault (s : State) (who : Requester) (index : Nat) : State :=
  s.onEntry who 18 index s.clearFaultOf

/-- SET_HOLD (R8). -/
def State.setHold (s : State) (who : Requester) (index : Nat) : State :=
  s.onEntry who 19 index fun i => (.ok, s.setEntry i { s.entry i with held := true })

/-- CLEAR_HOLD (R8). -/
def State.clearHold (s : State) (who : Requester) (index : Nat) : State :=
  s.onEntry who 20 index fun i => (.ok, s.setEntry i { s.entry i with held := false })

/-- Touched cleared on every entry (R9). -/
def State.clearAllTouched (s : State) : State :=
  { s with entries := Vector.ofFn fun i => { s.entries[i] with touched := false } }

/-- CLEAR_TOUCHED of one entry, or with 255 of all (R9, R175). -/
def State.clearTouched (s : State) (who : Requester) (index : Nat) : State :=
  if index = 255 then s.clearAllTouched.finish who 21 .ok []
  else s.onEntry who 21 index fun i => (.ok, s.setEntry i { s.entry i with touched := false })

/-- The capture ARM_CAPTURE sets up (R164), or none where it is answered BAD_VALUE. -/
def Capture.arm (c : Capture) (target : Nat) (mode action : Byte) : Option Capture :=
  match CaptureMode.ofCode mode.toNat, CaptureAction.ofCode action.toNat with
  | some m, some a =>
    if target = 0 ∨ 999999 < target ∨ m = .off then none
    else some { c with target := target, mode := m, action := a, state := .watching }
  | _, _ => none

/-- ARM_CAPTURE (R164). -/
def State.armCapture (s : State) (who : Requester) (target : Nat) (mode action : Byte) : State :=
  match s.capture.arm target mode action with
  | some c => State.finish { s with capture := c } who 22 .ok []
  | none => s.finish who 22 .badValue []

/-- The capture after DISARM_CAPTURE (R164): from IDLE nothing changes. -/
def Capture.disarm (c : Capture) : Capture :=
  match c.state with
  | .idle _ => c
  | .watching => { c with state := .idle none }
  | .opened _ _ => { c with state := .idle none }

/-- DISARM_CAPTURE (R164). -/
def State.disarmCapture (s : State) (who : Requester) : State :=
  State.finish { s with capture := s.capture.disarm } who 23 .ok []

/-- LINE_ABORT (R148, R175). -/
def State.lineAbort (s : State) (who : Requester) (line : Nat) : State :=
  if h : line < 6 then (s.abortLine ⟨line, h⟩).finish who 24 .ok [] else s.finish who 24 .indexRange []

/-- LINE_RESET (R149, R175). -/
def State.lineReset (s : State) (who : Requester) (line : Nat) : State :=
  if h : line < 6 then (s.resetLine ⟨line, h⟩).finish who 25 .ok [] else s.finish who 25 .indexRange []

/-- What BRIDGE_RESET does to every block but the answer it gives (R176): the entries moved by R22, the pass dropped and
the pass timer 0 (R90), the Line Engines emptied (R150), the receive queue emptied and the transmit queue down to a frame
whose sending has begun (R154, R155, log 16), the rotation at the Lamp Path, which waits for nothing (R156, R162), the
capture as at power-up (R163), the notice marks cleared (R186). -/
def State.resetBlocks (s : State) : State :=
  let t := forLines State.resetEngine (forEntries State.resetEntry s)
  { t with
    passTimer := 0, passState := .idle, plan := []
    rx := [], tx := if s.sending then s.tx.take 1 else [], rotation := .lampPath, lampWaiting := false
    capture := { Capture.initial with nextMark := s.capture.nextMark }
    noticePending := false, noticeOwed := false }

/-- BRIDGE_RESET (R176): its answer is built after the step and stands behind a frame whose sending had begun. -/
def State.bridgeReset (s : State) (who : Requester) : State := s.resetBlocks.finish who 26 .ok []

/-- SAVE_IMAGE (R177): the save begins with the erase of the image area (R179), which the flash holds empty from here on:
an erase that is cut off or not reported leaves a bad image (section 10.8, log 14). -/
def State.saveImage (s : State) (who : Requester) : State :=
  if s.imageBusy then s.finish who 27 .imageBusy []
  else State.finish { s with save := some .erasing, flash := [] } who 27 .ok []

/-- CLEAR_EVENTS (R175). -/
def State.clearEvents (s : State) (who : Requester) (set : BitVec 14) : State :=
  (s.clearFlags set).finish who 28 .ok []

end Sys2Proof.Machine
end

