-- ==== Sys2Proof/Machine/Image.lean ====
section
/-! DEFINITION. The Image Store: the layout of the image, the course of a save, the load at power-up, and power-up itself
(R21, R42, R132, R151, R177 to R180, R182, section 12.4). -/

namespace Sys2Proof.Machine

/-! ### The layout of the image -/

/-- The marker and the format version an image begins with. -/
def imageMarker : List Byte := [0x48, 0x57, 0x36, 0x32, 1]

/-- The 9-byte header with a content length. -/
def imageHeader (length : Nat) : List Byte := imageMarker ++ beBytes 4 length

/-- The tables in the order of R178. -/
def imageTables : List Table := [.bridge, .line, .policy, .criteria, .group, .calendar, .blackout, .map]

/-- The length of a record in read form. -/
def Table.readLength : Table → Nat
  | .map => 53
  | t => t.writeLength

/-- A MAP record of the image: state READY or FAULTED, the current test, recharge left and retry left at 0. -/
def Entry.imageRecord (e : Entry) (i : EntryId) : List Byte :=
  e.writtenPart i ++ [if e.state = .faulted then 6 else 0] ++ List.replicate 19 0 ++ e.historyPart

/-- The code and record count a table begins with. -/
def tableHead (t : Table) (count : Nat) : List Byte := [byteOf t.code, byteOf count]

/-- The records of a table of fixed size in read form, from index 0. -/
def State.tableRecords (s : State) (t : Table) : List Byte :=
  tableHead t t.size ++ (List.range t.size).flatMap (s.readRecord t)

/-- The bytes of one item of a save, each item read as one version (R178); the first row and the first entry carry the
head of their table. A GROUP record holds N, O and Q at 0; the written mark of a row is not held (log 11). -/
def State.itemBytes (s : State) : SaveItem → List Byte
  | .bridge => s.tableRecords .bridge
  | .line => s.tableRecords .line
  | .policy => s.tableRecords .policy
  | .criteria => s.tableRecords .criteria
  | .group => tableHead .group 32 ++ (List.finRange 32).flatMap fun g => (s.group g).record g.val 0 0 0
  | .calendar row =>
    (if row = 0 then tableHead .calendar 7 else []) ++ s.rows[row].record row.val (Config.fillByte 1)
  | .blackout => tableHead .blackout s.blackouts.length ++ s.blackouts.flatMap Blackout.record
  | .map i => (if i = 0 then tableHead .map 240 else []) ++ (s.entry i).imageRecord i

/-- The item a save reads after one (R178). -/
def SaveItem.next : SaveItem → Option SaveItem
  | .bridge => some .line
  | .line => some .policy
  | .policy => some .criteria
  | .criteria => some .group
  | .group => some (.calendar 0)
  | .calendar row => if h : row.val + 1 < 7 then some (.calendar ⟨row.val + 1, h⟩) else some .blackout
  | .blackout => some (.map 0)
  | .map i => if h : i.val + 1 < 240 then some (.map ⟨i.val + 1, h⟩) else none

/-! ### The course of a save (R178, R179) -/

/-- The save reads the item it has reached (R178). -/
def State.saveRead (s : State) : State :=
  match s.save with
  | some (.reading item) => { s with save := some (.writing (s.itemBytes item) item.next) }
  | _ => s

/-- The flash with bytes put behind the contents, the header stating the length so far (log 14). -/
def appendContent (flash bytes : List Byte) : List Byte :=
  imageHeader ((flash.drop 9) ++ bytes).length ++ ((flash.drop 9) ++ bytes)

/-- The four bytes of the CRC-32 over some bytes. -/
def crcBytes (bytes : List Byte) : List Byte := beBytes 4 (crc32 bytes).toNat

/-- The CRC-32 of a read-back image, computed again, agrees with the one written (R179). -/
def readBackAgrees (readBack crc : List Byte) : Bool := crcBytes (readBack.take (readBack.length - 4)) == crc

/-- A save completes: the lock ends, the progress is cleared, a flag is raised (R179). -/
def State.saveEnd (s : State) (f : EventFlag) : State := State.raise { s with save := none } f

/-- The flash reports the operation asked of it finished (R179). On the read-back the bytes read decide the outcome
alone: the flash holds what the save wrote, whatever was read. -/
def State.flashDone (s : State) (readBack : List Byte) : State :=
  match s.save with
  | some .erasing => { s with flash := [], save := some .header }
  | some .header => { s with flash := imageHeader 0, save := some (.reading .bridge) }
  | some (.writing bytes (some item)) =>
    { s with flash := appendContent s.flash bytes, save := some (.reading item) }
  | some (.writing bytes none) =>
    { s with flash := appendContent s.flash bytes, save := some (.crc (crcBytes (appendContent s.flash bytes))) }
  | some (.crc bytes) => { s with flash := s.flash ++ bytes, save := some (.readBack bytes) }
  | some (.readBack crc) =>
    s.saveEnd (if readBackAgrees readBack crc then .imageSaved else .imageFault)
  | some (.reading _) => s
  | none => s

/-- A flash erase or write was not reported within 5 seconds (R179): the save stops with IMAGE_FAULT. What the
unreported operation itself left in the flash is the model's choice: nothing of it, so that the flash is empty in the
erase, and holds the contents written before it in a write (log 14). -/
def State.flashTimeout (s : State) : State :=
  match s.save with
  | some .erasing => s.saveEnd .imageFault
  | some .header => s.saveEnd .imageFault
  | some (.writing _ _) => s.saveEnd .imageFault
  | some (.crc _) => s.saveEnd .imageFault
  | some (.reading _) => s
  | some (.readBack _) => s
  | none => s

/-! ### The load (R21, R180) -/

/-- Bytes of the flash from an offset; bytes never written since the erase read 0xFF (log 14). -/
def flashRead (flash : List Byte) (off len : Nat) : List Byte :=
  (flash.drop off).take len ++ List.replicate (len - ((flash.drop off).take len).length) 0xFF

/-- What an image holds of an entry beyond a write record: touched, the state, and the history management cannot write
(R178). -/
structure ImageExtra where
  touched  : Bool
  faulted  : Bool
  verdict  : Option (Verdict × Kind)
  block    : Option BlockReason
  overdueF : Bool
  overdueD : Bool
  attempts : Nat
  deriving DecidableEq, Repr

/-- The last verdict of an image record: absent, present, or not a verdict of the tables (outer none). -/
def imageVerdict (v k : Nat) : Option (Option (Verdict × Kind)) :=
  if v = 0 then some none
  else
    match Verdict.ofCode v, Kind.ofCode k with
    | some v, some k => some (some (v, k))
    | _, _ => none

/-- The last block reason of an image record. -/
def imageBlock (v : Nat) : Option (Option BlockReason) :=
  if v = 0 then some none else (BlockReason.ofCode v).map some

/-- The extra fields of an image record; none for a state, a code or an attempt count no entry can have (log 15). -/
def imageExtra (b : List Byte) : Option ImageExtra :=
  match imageVerdict (natAt b 48 1) (natAt b 49 1), imageBlock (natAt b 50 1) with
  | some verdict, some block =>
    if (natAt b 28 1 = 0 ∨ natAt b 28 1 = 6) ∧ natAt b 52 1 ≤ 7 then
      some { touched := bitAt b 12 3, faulted := natAt b 28 1 = 6, verdict := verdict, block := block,
             overdueF := bitAt b 51 0, overdueD := bitAt b 51 1, attempts := natAt b 52 1 }
    else none
  | _, _ => none

/-- An entry with the extra fields of its image record. -/
def Entry.withExtra (e : Entry) (x : ImageExtra) : Entry :=
  { e with
    touched := x.touched, state := if x.faulted then .faulted else .ready, lastVerdict := x.verdict,
    lastBlock := x.block, overdueFunction := x.overdueF, overdueDuration := x.overdueD, attempts := x.attempts }

/-- A MAP record of an image, as a write record that selects every group. -/
def imageMapRecord (b : List Byte) : MapRecord :=
  { parseMap b with identity := true, membership := true, ratings := true, flags := true, history := true }

/-- Give an entry its extra fields when it is in use. -/
def State.addExtra (s : State) (index : Nat) (x : ImageExtra) : State :=
  if h : index < 240 then
    if (s.entry ⟨index, h⟩).inUse then s.setEntry ⟨index, h⟩ ((s.entry ⟨index, h⟩).withExtra x) else s
  else s

/-- Load one MAP record (R21). -/
def State.loadMap (s : State) (b : List Byte) : Option State :=
  match s.takeMap (imageMapRecord b), imageExtra b with
  | .ok t, some x => some (t.addExtra (natAt b 0 1) x)
  | _, _ => none

/-- Load one record by the WRITE_TABLE rules of its table (R180). -/
def State.loadRecord (s : State) (t : Table) (b : List Byte) : Option State :=
  match t with
  | .map => s.loadMap b
  | t =>
    match s.takeRecord (parseRecord t b) with
    | .ok s' => some s'
    | .error _ => none

/-- Load `k` records of a table; the state and the bytes that remain. An index the table names twice is written twice,
one it does not name keeps its default (log 15). -/
def loadRecords (t : Table) : Nat → List Byte → State → Option (State × List Byte)
  | 0, b, s => some (s, b)
  | k + 1, b, s =>
    if b.length < t.readLength then none
    else
      match s.loadRecord t (b.take t.readLength) with
      | some s' => loadRecords t k (b.drop t.readLength) s'
      | none => none

/-- Load one table: its code, its record count, its records. -/
def loadTable (t : Table) (b : List Byte) (s : State) : Option (State × List Byte) :=
  match b with
  | c :: k :: rest => if c.toNat = t.code then loadRecords t k.toNat rest s else none
  | _ => none

/-- Load the tables in order; nothing may follow the last. -/
def loadTables : List Table → List Byte → State → Option State
  | [], b, s => if b.isEmpty then some s else none
  | t :: ts, b, s =>
    match loadTable t b s with
    | some (s', rest) => loadTables ts rest s'
    | none => none

/-- The size of the largest image: header, the eight tables with 16 blackouts, CRC-32. -/
def largestImage : Nat := 9 + (8 * 2 + 27 + 6 * 5 + 8 * 2 + 16 * 3 + 32 * 13 + 7 * 50 + 16 * 9 + 240 * 53) + 4

/-- The size of the image area: the largest image and what the part has to spare (log 34). -/
def imageArea : Nat := largestImage + Config.imageSpareBytes

/-- The stated content length of the image. -/
def imageLength (flash : List Byte) : Nat := natAt (flashRead flash 5 4) 0 4

/-- The CRC-32 computed over header and contents agrees with the one the image holds. -/
def imageCrcOk (flash : List Byte) : Bool :=
  crcBytes (flashRead flash 0 (9 + imageLength flash)) == flashRead flash (9 + imageLength flash) 4

/-- A loaded calendar is valid (R45, R46). -/
def State.markRows (s : State) : State :=
  { s with rows := Vector.ofFn fun d => { s.rows[d] with written := true } }

/-- Load the image onto the default tables (R180); none when it is bad. -/
def State.loadImage (s : State) : Option State :=
  if flashRead s.flash 0 5 = imageMarker then
    if 9 + imageLength s.flash + 4 ≤ imageArea then
      if imageCrcOk s.flash then
        (loadTables imageTables (flashRead s.flash 9 (imageLength s.flash)) s).map State.markRows
      else none
    else none
  else none

/-! ### Power-up (R180, R182, R132, R151) -/

/-- The state at power-up before the load: every table at its defaults, nothing under way, CLOCK_NEEDED set; the flash,
the link and the waiting commands as they are, the strap number as read. -/
def State.atPowerUp (s : State) (straps : Byte) : State :=
  { State.reset with
    strap := straps, portOpen := false, linkUp := s.linkUp, flash := s.flash, flags := EventFlag.clockNeeded.mask,
    pending := s.pending }

/-- A strap reading of 0 or 255 names no station (R151). -/
def strapOk (straps : Byte) : Bool := straps != 0 && straps != 255

/-- Mains Sense reads its inputs (R132): a line that reads absent starts its loss debounce. -/
def State.readMains (s : State) (present : Vector Bool 6) : State :=
  { s with
    mains := Vector.ofFn fun n =>
      { MainsLine.initial with sense := SenseState.present.edge present[n] s.settings.debounce } }

/-- The port opens, and the flags set at power-up are taken as rises (R182); a port without a station stays closed
(R151, log 19). -/
def State.openPort (s : State) (bad : Bool) : State :=
  if strapOk s.strap then
    let t := State.noteRise { s with portOpen := true } .clockNeeded
    if bad then t.noteRise .imageBad else t
  else s

/-- Power-up (R180). -/
def State.powerUp (s : State) (straps : Byte) (flashAnswers : Bool) (present : Vector Bool 6) : State :=
  match (if flashAnswers then (s.atPowerUp straps).loadImage else none) with
  | some t => (t.openPort false).readMains present
  | none =>
    (State.openPort { s.atPowerUp straps with flags := EventFlag.clockNeeded.mask ||| EventFlag.imageBad.mask }
      true).readMains present

end Sys2Proof.Machine
end

