-- ==== Sys2Proof/Machine/Clock.lean ====
section
/-! DEFINITION. The minute event, the ends of the counters it drives, the course of an exchange as commands, and the
one-second tick of an idle block (R39, R38, R96, R122, R147; logs 2, 4, 5). -/

namespace Sys2Proof.Machine

/-! ### The minute event (R39) -/

/-- The minute count and the seconds phase at a minute event (R38, R39). A MINUTE_EVENT given while the phase reads less
than 59, as right after a SET_CLOCK (R40), stands for the seconds that were left: the phase becomes 0 all the same
(log 3). -/
def State.clockMinute (s : State) : State :=
  { s with seconds := 0, minute := if s.clockValid && decide (s.minute < maxMinute) then s.minute + 1 else s.minute }

/-- The minute event, delivered to every block that counts minutes: the pass timer, the entries, Mains Sense, the
blackout list, in that order (log 5); the stops that then fall due are placed and the lines served. -/
def State.minuteTick (s : State) : State :=
  (forEntries State.minuteEntry s.clockMinute.passMinute).mainsMinute.expireBlackouts.settleLines

/-! ### The ends of minute counters as commands (log 2) -/

/-- The pass timer reaches the pass interval (R72, R73). -/
def State.passTimerEnd (s : State) : State :=
  if s.settings.passInterval ≤ s.passTimer + 1 then State.passExpiry { s with passTimer := 0 } else s

/-- The remaining minutes of a TESTING entry run out with its last minute (R100). -/
def State.remainingEnd (s : State) (i : EntryId) : State :=
  match (s.entry i).state with
  | .testing t => if t.remaining ≤ 1 then (s.remainingOut i t).settleLine (s.entry i).line else s
  | _ => s

/-- Recharge left runs out with its last minute (R118). -/
def State.rechargeEnd (s : State) (i : EntryId) : State :=
  match (s.entry i).state with
  | .recharging left => if left ≤ 1 then s.setEntryState i .ready else s
  | _ => s

/-- Retry left runs out with its last minute, which does not count on a line in outage (R95). -/
def State.backoffEnd (s : State) (i : EntryId) : State :=
  match (s.entry i).state with
  | .backoff left => if left ≤ 1 ∧ s.inOutage (s.entry i).line = false then s.setEntryState i .ready else s
  | _ => s

/-! ### The course of an exchange (R134, R137, R139) -/

/-- The last byte of a request has gone: the reply window opens with the length then set (R137, R145). -/
def State.requestSent (s : State) (n : LineId) : State :=
  match (s.line n).engine with
  | .sending x => s.setEngine n (.awaiting x (s.line n).settings.replyWindow)
  | _ => s

/-- The exchange number a request carries. -/
def Exchange.number (x : Exchange) : Byte := byteAt x.bytes 1

/-- What was heard on a line in the reply window is checked (R134, R137). A stray leaves the window open, and an answer
that a later command brings in the same window is checked and may be taken (log 21). -/
def State.answerHeard (s : State) (n : LineId) (heard : List Byte) : State :=
  match (s.line n).engine with
  | .awaiting x _ =>
    match checkAnswer x.node x.number x.work.name heard with
    | .incomplete => s
    | .stray => s
    | .bad => (s.attemptEnd n x true).settleLine n
    | .taken a fields => (s.endExchange n x (.answered a fields)).settleLine n
  | _ => s

/-- The reply window closes with no answer taken (R137). -/
def State.windowClose (s : State) (n : LineId) (cutOff : Bool) : State :=
  match (s.line n).engine with
  | .awaiting x _ => (s.attemptEnd n x cutOff).settleLine n
  | _ => s

/-- Whether an engine is in GAP. -/
def Engine.isGap : Engine → Bool
  | .gap => true
  | _ => false

/-- The 8 ms gap ends: IDLE, and the arbiter grants (R139). -/
def State.gapEnd (s : State) (n : LineId) : State :=
  if (s.line n).engine.isGap then (s.setEngine n .idle).settleLine n else s

/-! ### The one-second tick (log 4) -/

/-- Poll due of an entry has reached 0 (R96): the PROBE joins the poll client, and an IDLE line grants at once (R144). -/
def State.pollEnd (s : State) (i : EntryId) : State := (s.pollDue i).settleLine (s.entry i).line

/-- A second for one entry: the poll due of a TESTING entry is lowered by one, and at 0 acted on (R96). -/
def State.pollSecond (i : EntryId) (s : State) : State :=
  match (s.entry i).state with
  | .testing t =>
    if t.pollDue ≤ 1 then s.pollEnd i else s.setEntryState i (.testing { t with pollDue := t.pollDue - 1 })
  | _ => s

/-- A second for one line's supply retry timer (R147). -/
def State.retrySecond (n : LineId) (s : State) : State :=
  match (s.line n).retryTimer with
  | some k => if k ≤ 1 then s.supplyRetry n else s.setLine n { s.line n with retryTimer := some (k - 1) }
  | none => s

/-- The seconds phase: the 60th second is a minute event (R39). -/
def State.phaseSecond (s : State) : State :=
  if 59 ≤ s.seconds then s.minuteTick else { s with seconds := s.seconds + 1 }

/-- One second of the part's timebase with no command waiting: the polls, the debounce timers, the supply retry timers,
then the seconds phase (log 4). -/
def State.tick (s : State) : State :=
  ((forLines State.retrySecond (forLines State.mainsSecond (forEntries State.pollSecond s))).settleLines).phaseSecond

end Sys2Proof.Machine
end

