-- ==== Sys2Proof/Machine/CommandsImage.lean ====
section
/-! DEFINITION. The commands of power-up and the Image Store: one meaning each (R178, R179, R180). -/

namespace Sys2Proof.Machine

/-- POWER_UP (R180). -/
def execPowerUp (straps : Byte) (flashAnswers : Bool) (mainsPresent : Vector Bool 6) (s : State) : Host.Outcome State Fault Refusal :=
  .next (s.powerUp straps flashAnswers mainsPresent)

/-- IMAGE_SAVE_READ (R178). -/
def execImageSaveRead (s : State) : Host.Outcome State Fault Refusal := .next s.saveRead

/-- FLASH_OP_DONE (R179). -/
def execFlashOpDone (readBack : List Byte) (s : State) : Host.Outcome State Fault Refusal :=
  .next (s.flashDone readBack)

/-- FLASH_OP_TIMEOUT (R179). -/
def execFlashOpTimeout (s : State) : Host.Outcome State Fault Refusal := .next s.flashTimeout

end Sys2Proof.Machine
end

