-- ==== Sys2Proof/Machine/CommandsLine.lean ====
section
/-! DEFINITION. The commands of the luminaire lines: one meaning each (spec/08). -/

namespace Sys2Proof.Machine

/-- LINE_SUPPLY_FAULT (R146). -/
def execLineSupplyFault (n : LineId) (s : State) : Host.Outcome State Fault Refusal := .next (s.supplyFault n)

/-- SUPPLY_RETRY (R147, log 3). -/
def execSupplyRetry (n : LineId) (s : State) : Host.Outcome State Fault Refusal := .next (s.supplyRetry n)

/-- SUPPLY_SENSE_READ (R147, R149). -/
def execSupplySenseRead (n : LineId) (limit : Bool) (s : State) : Host.Outcome State Fault Refusal :=
  .next (s.senseRead n limit)

/-- REQUEST_SENT (R137). -/
def execRequestSent (n : LineId) (s : State) : Host.Outcome State Fault Refusal := .next (s.requestSent n)

/-- LINE_ANSWER_RECEIVED (R134). -/
def execLineAnswerReceived (n : LineId) (heard : List Byte) (s : State) : Host.Outcome State Fault Refusal :=
  .next (s.answerHeard n heard)

/-- REPLY_WINDOW_CLOSE (R137, R188). -/
def execReplyWindowClose (n : LineId) (cutOff : Bool) (s : State) : Host.Outcome State Fault Refusal :=
  .next (s.windowClose n cutOff)

/-- GAP_END (R139). -/
def execGapEnd (n : LineId) (s : State) : Host.Outcome State Fault Refusal := .next (s.gapEnd n)

end Sys2Proof.Machine
end

