-- ==== Sys2Proof/Machine/CommandsManagement.lean ====
section
/-! DEFINITION. The commands of the Management Engine: one meaning each (spec/10). Those that name a request perform the request in
hand when it is theirs, and otherwise change nothing (logs 1 and 6). -/

namespace Sys2Proof.Machine

/-- MGMT_REQUEST_TAKE (R168). -/
def execMgmtRequestTake (s : State) : Host.Outcome State Fault Refusal := .next s.mgmtTake

/-- MGMT_ANSWER_PLACE (R168). -/
def execMgmtAnswerPlace (s : State) : Host.Outcome State Fault Refusal := .next s.mgmtPlace

/-- READ_TABLE (R171, log 7). -/
def execReadTable (s : State) : Host.Outcome State Fault Refusal := .next s.readStep

/-- WRITE_TABLE (R172). -/
def execWriteTable (s : State) : Host.Outcome State Fault Refusal :=
  match s.inHand with
  | some (who, .writeTable table records) => .next (s.writeBegin who table records)
  | _ => .next s

/-- MAP_RECORD (R14). -/
def execMapRecord (s : State) : Host.Outcome State Fault Refusal := .next (s.writeStep TableRecord.isMap)

/-- GROUP_RECORD (R24). -/
def execGroupRecord (s : State) : Host.Outcome State Fault Refusal := .next (s.writeStep TableRecord.isGroup)

/-- CALENDAR_RECORD (R44). -/
def execCalendarRecord (s : State) : Host.Outcome State Fault Refusal := .next (s.writeStep TableRecord.isCalendar)

/-- BLACKOUT_INSERT (R48). -/
def execBlackoutInsert (s : State) : Host.Outcome State Fault Refusal := .next (s.writeStep TableRecord.isInsertion)

/-- BLACKOUT_REMOVE (R49). -/
def execBlackoutRemove (s : State) : Host.Outcome State Fault Refusal := .next (s.writeStep TableRecord.isRemoval)

/-- CRITERIA_RECORD (R111). -/
def execCriteriaRecord (s : State) : Host.Outcome State Fault Refusal := .next (s.writeStep TableRecord.isCriteria)

/-- POLICY_RECORD (R115). -/
def execPolicyRecord (s : State) : Host.Outcome State Fault Refusal := .next (s.writeStep TableRecord.isPolicy)

/-- LINE_RECORD (R145). -/
def execLineRecord (s : State) : Host.Outcome State Fault Refusal := .next (s.writeStep TableRecord.isLine)

/-- BRIDGE_RECORD (R173). -/
def execBridgeRecord (s : State) : Host.Outcome State Fault Refusal := .next (s.writeStep TableRecord.isBridge)

/-- SET_CLOCK (R40, R174). -/
def execSetClock (s : State) : Host.Outcome State Fault Refusal :=
  match s.inHand with
  | some (who, .setClock m) => .next (s.setClock who m)
  | _ => .next s

/-- READ_STATUS (R174). -/
def execReadStatus (s : State) : Host.Outcome State Fault Refusal :=
  match s.inHand with
  | some (who, .readStatus take) => .next (s.readStatus who take)
  | _ => .next s

/-- SCHED_ON (R70). -/
def execSchedOn (s : State) : Host.Outcome State Fault Refusal :=
  match s.inHand with
  | some (who, .schedOn) => .next (s.schedOn who)
  | _ => .next s

/-- SCHED_OFF (R70, R71). -/
def execSchedOff (s : State) : Host.Outcome State Fault Refusal :=
  match s.inHand with
  | some (who, .schedOff) => .next (s.schedOff who)
  | _ => .next s

/-- CLEAR_FAULT (R117). -/
def execClearFault (s : State) : Host.Outcome State Fault Refusal :=
  match s.inHand with
  | some (who, .clearFault k) => .next (s.clearFault who k)
  | _ => .next s

/-- SET_HOLD (R8). -/
def execSetHold (s : State) : Host.Outcome State Fault Refusal :=
  match s.inHand with
  | some (who, .setHold k) => .next (s.setHold who k)
  | _ => .next s

/-- CLEAR_HOLD (R8). -/
def execClearHold (s : State) : Host.Outcome State Fault Refusal :=
  match s.inHand with
  | some (who, .clearHold k) => .next (s.clearHold who k)
  | _ => .next s

/-- CLEAR_TOUCHED (R9, R175). -/
def execClearTouched (s : State) : Host.Outcome State Fault Refusal :=
  match s.inHand with
  | some (who, .clearTouched k) => .next (s.clearTouched who k)
  | _ => .next s

/-- ARM_CAPTURE (R164). -/
def execArmCapture (s : State) : Host.Outcome State Fault Refusal :=
  match s.inHand with
  | some (who, .armCapture target mode action) => .next (s.armCapture who target mode action)
  | _ => .next s

/-- DISARM_CAPTURE (R164). -/
def execDisarmCapture (s : State) : Host.Outcome State Fault Refusal :=
  match s.inHand with
  | some (who, .disarmCapture) => .next (s.disarmCapture who)
  | _ => .next s

/-- LINE_ABORT (R148). -/
def execLineAbort (s : State) : Host.Outcome State Fault Refusal :=
  match s.inHand with
  | some (who, .lineAbort n) => .next (s.lineAbort who n)
  | _ => .next s

/-- LINE_RESET (R149). -/
def execLineReset (s : State) : Host.Outcome State Fault Refusal :=
  match s.inHand with
  | some (who, .lineReset n) => .next (s.lineReset who n)
  | _ => .next s

/-- BRIDGE_RESET (R176). -/
def execBridgeReset (s : State) : Host.Outcome State Fault Refusal :=
  match s.inHand with
  | some (who, .bridgeReset) => .next (s.bridgeReset who)
  | _ => .next s

/-- SAVE_IMAGE (R177). -/
def execSaveImage (s : State) : Host.Outcome State Fault Refusal :=
  match s.inHand with
  | some (who, .saveImage) => .next (s.saveImage who)
  | _ => .next s

/-- CLEAR_EVENTS (R175). -/
def execClearEvents (s : State) : Host.Outcome State Fault Refusal :=
  match s.inHand with
  | some (who, .clearEvents set) => .next (s.clearEvents who set)
  | _ => .next s

end Sys2Proof.Machine
end

