-- ==== Sys2Proof/Machine/CommandsTime.lean ====
section
/-! DEFINITION. The commands of time, the scheduling pass, the test counters and mains sense: one meaning each (R39, R73, R74, R79,
R95, R96, R100, R118, R122, R123, R127, R129). Every meaning answers a next state; a command for which there is no
occasion changes nothing (log 1). -/

namespace Sys2Proof.Machine

/-- MINUTE_EVENT (R39): the minute event, whatever the seconds phase reads (log 3). -/
def execMinuteEvent (s : State) : Host.Outcome State Fault Refusal := .next s.minuteTick

/-- PASS_TIMER_EXPIRY (R73, log 2). -/
def execPassTimerExpiry (s : State) : Host.Outcome State Fault Refusal := .next s.passTimerEnd

/-- WALK_ENTRY (R74). -/
def execWalkEntry (s : State) : Host.Outcome State Fault Refusal := .next s.walkStep

/-- ADMISSION (R79). -/
def execAdmission (s : State) : Host.Outcome State Fault Refusal := .next s.admissionStep

/-- POLL_DUE (R96, log 3): poll due of an entry has reached 0. -/
def execPollDue (i : EntryId) (s : State) : Host.Outcome State Fault Refusal := .next (s.pollEnd i)

/-- REMAINING_MINUTES_OUT (R100, log 2). -/
def execRemainingMinutesOut (i : EntryId) (s : State) : Host.Outcome State Fault Refusal := .next (s.remainingEnd i)

/-- RECHARGE_END (R118, log 2). -/
def execRechargeEnd (i : EntryId) (s : State) : Host.Outcome State Fault Refusal := .next (s.rechargeEnd i)

/-- BACKOFF_END (R95, log 2). -/
def execBackoffEnd (i : EntryId) (s : State) : Host.Outcome State Fault Refusal := .next (s.backoffEnd i)

/-- HOLD_OFF_END (R129, log 2). -/
def execHoldOffEnd (n : LineId) (s : State) : Host.Outcome State Fault Refusal := .next (s.holdOffEnd n)

/-- MAINS_SENSE_CHANGE (R122). -/
def execMainsSenseChange (n : LineId) (present : Bool) (s : State) : Host.Outcome State Fault Refusal :=
  .next (s.senseChange n present)

/-- DEBOUNCED_LOSS (R123, log 3). -/
def execDebouncedLoss (n : LineId) (s : State) : Host.Outcome State Fault Refusal := .next (s.debouncedLoss n)

/-- DEBOUNCED_RESTORE (R127, log 3). -/
def execDebouncedRestore (n : LineId) (s : State) : Host.Outcome State Fault Refusal := .next (s.debouncedRestore n)

end Sys2Proof.Machine
end

