-- ==== Sys2Proof/Machine/CommandsTrunk.lean ====
section
/-! DEFINITION. The commands of the trunk, the Lamp Path and the notices: one meaning each (spec/09, R185). -/

namespace Sys2Proof.Machine

/-- FRAME_ARRIVAL (R152). -/
def execFrameArrival (f : TrunkFrame) (s : State) : Host.Outcome State Fault Refusal := .next (s.frameArrival f)

/-- FRAME_SENT (R155). -/
def execFrameSent (s : State) : Host.Outcome State Fault Refusal := .next s.frameSent

/-- NOTICE_BUILD (R185). -/
def execNoticeBuild (s : State) : Host.Outcome State Fault Refusal := .next s.noticeBuild

/-- BACKLOG_ANSWER_PLACE (R140). -/
def execBacklogAnswerPlace (n : LineId) (s : State) : Host.Outcome State Fault Refusal := .next (s.backlogPlace n)

/-- LAMP_REQUEST_TAKE (R158). -/
def execLampRequestTake (s : State) : Host.Outcome State Fault Refusal := .next s.lampTake

/-- TRUNK_LINK_CHANGE (R155). -/
def execTrunkLinkChange (up : Bool) (s : State) : Host.Outcome State Fault Refusal := .next { s with linkUp := up }

end Sys2Proof.Machine
end

