-- ==== Sys2Proof/Machine/Dispatch.lean ====
section
/-! DEFINITION. The meaning of every command, one arm each. -/

namespace Sys2Proof.Machine

/-- The effect of a command on everything but the queue of waiting commands. -/
def exec (i : Instr) (s : State) : Host.Outcome State Fault Refusal :=
  match i with
  | .powerUp straps flashAnswers mainsPresent => Sys2Proof.Machine.execPowerUp straps flashAnswers mainsPresent s
  | .minuteEvent => Sys2Proof.Machine.execMinuteEvent s
  | .passTimerExpiry => Sys2Proof.Machine.execPassTimerExpiry s
  | .walkEntry => Sys2Proof.Machine.execWalkEntry s
  | .admission => Sys2Proof.Machine.execAdmission s
  | .pollDue entry => Sys2Proof.Machine.execPollDue entry s
  | .remainingMinutesOut entry => Sys2Proof.Machine.execRemainingMinutesOut entry s
  | .rechargeEnd entry => Sys2Proof.Machine.execRechargeEnd entry s
  | .backoffEnd entry => Sys2Proof.Machine.execBackoffEnd entry s
  | .holdOffEnd line => Sys2Proof.Machine.execHoldOffEnd line s
  | .mainsSenseChange line present => Sys2Proof.Machine.execMainsSenseChange line present s
  | .debouncedLoss line => Sys2Proof.Machine.execDebouncedLoss line s
  | .debouncedRestore line => Sys2Proof.Machine.execDebouncedRestore line s
  | .lineSupplyFault line => Sys2Proof.Machine.execLineSupplyFault line s
  | .supplyRetry line => Sys2Proof.Machine.execSupplyRetry line s
  | .supplySenseRead line limit => Sys2Proof.Machine.execSupplySenseRead line limit s
  | .requestSent line => Sys2Proof.Machine.execRequestSent line s
  | .lineAnswerReceived line heard => Sys2Proof.Machine.execLineAnswerReceived line heard s
  | .replyWindowClose line cutOff => Sys2Proof.Machine.execReplyWindowClose line cutOff s
  | .gapEnd line => Sys2Proof.Machine.execGapEnd line s
  | .frameArrival frame => Sys2Proof.Machine.execFrameArrival frame s
  | .frameSent => Sys2Proof.Machine.execFrameSent s
  | .noticeBuild => Sys2Proof.Machine.execNoticeBuild s
  | .backlogAnswerPlace line => Sys2Proof.Machine.execBacklogAnswerPlace line s
  | .lampRequestTake => Sys2Proof.Machine.execLampRequestTake s
  | .mgmtRequestTake => Sys2Proof.Machine.execMgmtRequestTake s
  | .mgmtAnswerPlace => Sys2Proof.Machine.execMgmtAnswerPlace s
  | .readTable => Sys2Proof.Machine.execReadTable s
  | .writeTable => Sys2Proof.Machine.execWriteTable s
  | .mapRecord => Sys2Proof.Machine.execMapRecord s
  | .groupRecord => Sys2Proof.Machine.execGroupRecord s
  | .calendarRecord => Sys2Proof.Machine.execCalendarRecord s
  | .blackoutInsert => Sys2Proof.Machine.execBlackoutInsert s
  | .blackoutRemove => Sys2Proof.Machine.execBlackoutRemove s
  | .criteriaRecord => Sys2Proof.Machine.execCriteriaRecord s
  | .policyRecord => Sys2Proof.Machine.execPolicyRecord s
  | .lineRecord => Sys2Proof.Machine.execLineRecord s
  | .bridgeRecord => Sys2Proof.Machine.execBridgeRecord s
  | .setClock => Sys2Proof.Machine.execSetClock s
  | .readStatus => Sys2Proof.Machine.execReadStatus s
  | .schedOn => Sys2Proof.Machine.execSchedOn s
  | .schedOff => Sys2Proof.Machine.execSchedOff s
  | .clearFault => Sys2Proof.Machine.execClearFault s
  | .setHold => Sys2Proof.Machine.execSetHold s
  | .clearHold => Sys2Proof.Machine.execClearHold s
  | .clearTouched => Sys2Proof.Machine.execClearTouched s
  | .armCapture => Sys2Proof.Machine.execArmCapture s
  | .disarmCapture => Sys2Proof.Machine.execDisarmCapture s
  | .lineAbort => Sys2Proof.Machine.execLineAbort s
  | .lineReset => Sys2Proof.Machine.execLineReset s
  | .bridgeReset => Sys2Proof.Machine.execBridgeReset s
  | .saveImage => Sys2Proof.Machine.execSaveImage s
  | .clearEvents => Sys2Proof.Machine.execClearEvents s
  | .imageSaveRead => Sys2Proof.Machine.execImageSaveRead s
  | .flashOpDone readBack => Sys2Proof.Machine.execFlashOpDone readBack s
  | .flashOpTimeout => Sys2Proof.Machine.execFlashOpTimeout s
  | .trunkLinkChange up => Sys2Proof.Machine.execTrunkLinkChange up s

end Sys2Proof.Machine
end

