-- ==== Sys2Proof/Machine/Step.lean ====
section
/-! DEFINITION. A step of the block: the command at the front of the queue, or with none waiting one second of the part's
timebase (log 4). -/

namespace Sys2Proof.Machine

/-- One step. -/
def step (s : State) : Host.Outcome State Fault Refusal :=
  match s.pending with
  | [] => .next s.tick
  | c :: rest => exec c { s with pending := rest }

/-- The command a table word spells put at the front of the queue; the table's rows give no bits, so none is. -/
def State.withFetchWord (s : State) (nbits w : Nat) : State :=
  match decodeTableWord nbits w with
  | some c => { s with pending := c :: s.pending }
  | none => s

end Sys2Proof.Machine
end

