-- ==== Sys2Proof/Safety.lean ====
section
/-! DEFINITION. The laws of the device as predicates over the state: the bounds of the queues, the clock, the ranges of
the tables and of the entries, the uniqueness of the map, the plan list, the notice, the line supply, the polls, the line
active count, Mains Sense and the capture. -/

namespace Sys2Proof.Machine.Safety

/-- Whether the exchange in flight on a line is a pass-through one: 1 or 0. -/
def passInFlight (l : LineEngine) : Nat :=
  match l.engine.exchange with
  | some { work := .passThrough _, .. } => 1
  | _ => 0

/-- Receive and transmit queue hold at most 16 frames (R154, R155); a pass-through queue at most 8 requests, a control
queue at most 4 (R142); waiting requests, backlog and a pass-through exchange in flight at most 9 together (R141). -/
def QueuesBounded (s : State) : Prop :=
  s.rx.length ≤ 16 ∧ s.tx.length ≤ 16 ∧
  ∀ n : LineId, (s.line n).pass.length ≤ 8 ∧ (s.line n).control.length ≤ 4 ∧
    (s.line n).pass.length + (s.line n).backlog.length + passInFlight (s.line n) ≤ 9

/-- The minute value of a SET_CLOCK in hand, if there is one. -/
def clockInHand (s : State) : Option Nat :=
  match s.mgmt with
  | .working _ (.request (.setClock m)) => some m
  | _ => none

/-- The clock never passes its maximum, is 0 while invalid, and its seconds phase is 0 to 59 (R38); a SET_CLOCK in hand
carries a value in the clock's range (R40). -/
def ClockLaw (s : State) : Prop :=
  s.minute ≤ maxMinute ∧ (s.clockValid = false → s.minute = 0) ∧ s.seconds ≤ 59 ∧
  ∀ m ∈ clockInHand s, m ≤ maxMinute

/-- The stored ranges of a group record (R23, R25). -/
def groupOk (g : GroupSettings) : Prop :=
  g.quotaPercent ≤ 100 ∧ (1 ≤ g.weight ∧ g.weight ≤ 15) ∧ (7 ≤ g.functionInterval ∧ g.functionInterval ≤ 93) ∧
  g.functionTolerance ≤ 14 ∧ g.functionTolerance ≤ g.functionInterval / 2 ∧
  (90 ≤ g.durationInterval ∧ g.durationInterval ≤ 730) ∧
  g.durationTolerance ≤ 60 ∧ g.durationTolerance ≤ g.durationInterval / 2 ∧
  (1 ≤ g.rechargeHours ∧ g.rechargeHours ≤ 48)

/-- The stored ranges of the bridge settings (R173). -/
def settingsOk (b : BridgeSettings) : Prop :=
  (1 ≤ b.passInterval ∧ b.passInterval ≤ 15) ∧ (5 ≤ b.grace ∧ b.grace ≤ 60) ∧
  (1 ≤ b.maxAttempts ∧ b.maxAttempts ≤ 7) ∧ (1 ≤ b.backoffBase ∧ b.backoffBase ≤ 240) ∧
  (2 ≤ b.debounce ∧ b.debounce ≤ 60) ∧ b.holdOff ≤ 1440 ∧ 0x0600 ≤ b.lightingType.toNat

/-- The stored ranges of a line's settings (R145). -/
def lineSettingsOk (l : LineSettings) : Prop :=
  (10 ≤ l.replyWindow ∧ l.replyWindow ≤ 100) ∧ (1 ≤ l.attempts ∧ l.attempts ≤ 4) ∧
  (15 ≤ l.pollPeriod ∧ l.pollPeriod ≤ 900)

/-- Every table holds only values in their stored ranges (R23, R25, R111, R145, R173), and the pass timer lies below the
largest pass interval (R72). -/
def TablesInRange (s : State) : Prop :=
  (∀ g : Fin 32, groupOk (s.group g)) ∧ (∀ n : LineId, lineSettingsOk (s.line n).settings) ∧
  (∀ c : Fin 16, s.criteria[c] = 0 ∨ (800 ≤ s.criteria[c] ∧ s.criteria[c] ≤ 3600)) ∧
  settingsOk s.settings ∧ s.passTimer ≤ 14

/-- The ranges of a current test (R12). -/
def testOk (t : CurrentTest) : Prop :=
  t.remaining ≤ 255 ∧ t.remainingAtStart ≤ 255 ∧ t.missed ≤ 3 ∧ t.pollDue ≤ 900

/-- The range of the optional part of an entry's state (R10, R12). -/
def stateOk : EntryState → Prop
  | .recharging left => 1 ≤ left ∧ left ≤ 2880
  | .backoff left => 1 ≤ left ∧ left ≤ 1440
  | .pending t => testOk t
  | .testing t => testOk t
  | .ending t => testOk t
  | .ready => True
  | .faulted => True

/-- One entry: valid rated minutes (R16), the ranges of R10 and R12, attempts at most 7 (R94), in use with a campus number
and a node in range (R2), or free with the cleared values (R1). -/
def entryOk (e : Entry) : Prop :=
  (30 ≤ e.rated ∧ e.rated ≤ 240 ∧ e.rated % 30 = 0) ∧ stateOk e.state ∧ e.attempts ≤ 7 ∧
  (e.inUse = true → (1 ≤ e.cln ∧ e.cln ≤ 999999) ∧ (1 ≤ e.node ∧ e.node ≤ 40)) ∧ (e.inUse = false → e = Entry.free)

/-- Every entry lies in its ranges. -/
def EntriesInRange (s : State) : Prop := ∀ i : EntryId, entryOk (s.entry i)

/-- No two in-use entries share a campus number or a line and node (R3). -/
def MapUnique (s : State) : Prop :=
  ∀ i j : EntryId, i ≠ j → (s.entry i).inUse = true → (s.entry j).inUse = true →
    (s.entry i).cln ≠ (s.entry j).cln ∧ ((s.entry i).line ≠ (s.entry j).line ∨ (s.entry i).node ≠ (s.entry j).node)

/-- The index the walk reaches next, 240 when no walk is in flight. -/
def walkFront (s : State) : Nat :=
  match s.passState with
  | .walking i => i.val
  | .idle => 240
  | .admitting => 240

/-- The plan list (R77): at most 16 records, ordered by score, highest first, and by index among equal scores, no index
twice, scores at most 60,500 (R60), empty when the pass state is IDLE; the walk has passed every listed index. -/
def PlanLaw (s : State) : Prop :=
  s.plan.length ≤ 16 ∧ s.plan.Pairwise (fun a b => a.before b = true) ∧
  s.plan.Pairwise (fun a b => a.entry ≠ b.entry) ∧ (∀ r ∈ s.plan, r.score ≤ 60500) ∧
  (s.passState = .idle → s.plan = []) ∧ ∀ r ∈ s.plan, r.entry.val < walkFront s

/-- How many NOTICE frames stand in the transmit queue. -/
def noticesQueued (s : State) : Nat := s.tx.countP Frame.isNotice

/-- The answer held in ANSWERING, if any. -/
def heldAnswer (s : State) : Option Frame :=
  match s.mgmt with
  | .answering f => some f
  | _ => none

/-- At most one NOTICE stands in the transmit queue (R185); none while one is pending, and one is owed only while one
stands there (R184); no answer is a NOTICE. -/
def NoticeLaw (s : State) : Prop :=
  noticesQueued s ≤ 1 ∧ (s.noticePending = true → noticesQueued s = 0) ∧
  (s.noticeOwed = true → noticesQueued s = 1) ∧
  (∀ n : LineId, ∀ f ∈ (s.line n).backlog, f.isNotice = false) ∧ ∀ f ∈ heldAnswer s, f.isNotice = false

/-- The supply of one line: off only in DOWN, the retry timer (1 to 10 s) running exactly while it is off; a line that is
DOWN with its supply on has its sense read due (R146, R147). -/
def supplyOk (l : LineEngine) : Prop :=
  (l.supplyOn = false → l.engine.isDown = true ∧ l.senseDue = false) ∧
  (l.supplyOn = false ↔ l.retryTimer.isSome = true) ∧ (∀ k ∈ l.retryTimer, 1 ≤ k ∧ k ≤ 10) ∧
  (l.engine.isDown = true → l.supplyOn = true → l.senseDue = true)

/-- The supply of every line. -/
def SupplyLaw (s : State) : Prop := ∀ n : LineId, supplyOk (s.line n)

/-- A poll client holds at most one PROBE for each entry, in order of map index (R143). -/
def PollsLaw (s : State) : Prop := ∀ n : LineId, (s.line n).polls.Pairwise fun a b => a.entry.val < b.entry.val

/-- The line active count is at most 12 on every line (R11). -/
def ActiveLaw (s : State) : Prop := ∀ n : LineId, s.lineActive n ≤ 12

/-- The debounce timer of a sense state, if one runs. -/
def debounceTimer : SenseState → Option Nat
  | .lossPending t => some t
  | .restorePending t => some t
  | .present => none
  | .absent => none

/-- Mains Sense of one line: a running debounce timer 1 to 60 s (R131), the outage-minute counter at most 65,535 (R126),
hold-off left at most 1,440 (R131). -/
def mainsOk (m : MainsLine) : Prop :=
  (∀ t ∈ debounceTimer m.sense, 1 ≤ t ∧ t ≤ 60) ∧ m.outageMinutes ≤ 65535 ∧ m.holdOff ≤ 1440

/-- Mains Sense of every line. -/
def MainsLaw (s : State) : Prop := ∀ n : LineId, mainsOk (s.mainsLine n)

/-- The capture target lies in 1 to 999,999 (R163), a recorded node answer has at most 8 bytes (section 12.5), and an
OPEN capture's mark has been given out (log 10). -/
def CaptureLaw (s : State) : Prop :=
  (1 ≤ s.capture.target ∧ s.capture.target ≤ 999999) ∧
  (∀ r ∈ s.capture.state.record, r.nodeBytes.length ≤ 8) ∧
  match s.capture.state with
  | .opened r k => k < s.capture.nextMark ∧ r.answer = none
  | .idle _ => True
  | .watching => True

/-- The blackout list (R47): at most 16 entries, in order of start and end, each with an end after its start and with
classes, no two alike. -/
def BlackoutLaw (s : State) : Prop :=
  s.blackouts.length ≤ 16 ∧ s.blackouts.Pairwise (fun a b => a.before b = true) ∧
  s.blackouts.Pairwise (fun a b => a ≠ b) ∧ ∀ b ∈ s.blackouts, b.start < b.stop ∧ b.classes ≠ 0

/-! ### What statements about one command say -/

/-- The row of the table whose command deals with a record in hand. -/
def recordCommand (r : TableRecord) : Instr :=
  match r with
  | .map _ => .mapRecord
  | .group _ => .groupRecord
  | .calendar _ => .calendarRecord
  | .blackout b => if b.classes = 0 then .blackoutRemove else .blackoutInsert
  | .criteria _ _ => .criteriaRecord
  | .policy _ _ => .policyRecord
  | .line _ => .lineRecord
  | .bridge _ => .bridgeRecord

/-- The MGMT answer frame a state builds (R157, R169, section 12.3). -/
def answerFrame (s : State) (who : Requester) (request : Nat) (code : MgmtCode) (fields : List Byte) : Frame :=
  { dest := who.address, source := stationAddressOf s.strap, etype := s.settings.lightingType, kind := .mgmtAnswer,
    tag := who.tag, bridge := s.strap, body := byteOf request :: byteOf code.code :: fields }

/-- `t` is `b` with an answer given: in the transmit queue and the engine IDLE when a place is free, held in ANSWERING
otherwise; nothing else differs (R168). -/
def Answered (b t : State) (who : Requester) (request : Nat) (code : MgmtCode) (fields : List Byte) : Prop :=
  t = { b with tx := t.tx, mgmt := t.mgmt } ∧
  (b.tx.length < 16 → t.tx = b.tx ++ [answerFrame b who request code fields] ∧ t.mgmt = .idle) ∧
  (16 ≤ b.tx.length → t.tx = b.tx ∧ t.mgmt = .answering (answerFrame b who request code fields))

/-- The LAMP answer frame a state builds (R157, R162, section 12.2), without node answer fields. -/
def refusalFrame (s : State) (dest : Mac) (tag : Tag) (cln request : Nat) (code : LampCode) : Frame :=
  { dest := dest, source := stationAddressOf s.strap, etype := s.settings.lightingType, kind := .lampAnswer,
    tag := tag, bridge := s.strap, body := beBytes 4 cln ++ [byteOf request, byteOf code.code, 0] }

/-- The LAMP answer OK to a pass-through request, with the form byte and fields of the node's answer (R162). -/
def nodeAnswerFrame (s : State) (r : PassRequest) (f : List Byte) : Frame :=
  { refusalFrame s r.source r.tag r.cln r.name.code .ok with
    body := beBytes 4 r.cln ++ [byteOf r.name.code, 0, byteOf f.length] ++ f }

/-- The LAMP answer to a pass-through request that brought no node answer (R162). -/
def outcomeFrame (s : State) (code : LampCode) (r : PassRequest) : Frame :=
  refusalFrame s r.source r.tag r.cln r.name.code code

/-- The form byte and fields of a test report (section 12.5). -/
def reportFields (status result e : Byte) (v : Nat) (mains : Bool) : List Byte :=
  [3, status, result, e] ++ beBytes 2 v ++ [boolByte mains]

/-- The form bytes and fields that a request admits, written out by form (R133, R188, section 12.5). -/
def AdmittedFields (name : ReqName) (f : List Byte) : Prop :=
  match name with
  | .startFunction | .startDuration => f = [1, 1] ∨ f = [1, 2]
  | .stopTest => (∃ e, f = [2, 1, e]) ∨ f = [2, 2, 0]
  | .probe => ∃ (e : Byte) (m : Bool), f = reportFields 0 0 0 0 m ∨ f = reportFields 1 0 e 0 m ∨
      f = reportFields 2 0 e 0 m ∨ ∃ res : Byte, (res = 1 ∨ res = 2 ∨ res = 3) ∧
        (f = reportFields 3 res e 0 m ∨ ∃ v, v ≤ 4095 ∧ f = reportFields 4 res e v m)
  | .readParam => (∃ p a b, f = [4, 1, p, a, b]) ∨ ∃ p, f = [4, 2, p, 0, 0]
  | .identify => ∃ a b c d e g, f = [5, 1, a, b, c, d, e, g]
  | .setParam | .setRest => f = [6, 1] ∨ f = [6, 2]

/-- A line answer as heard on a line: node, exchange number, form byte and fields, check byte (section 12.5). -/
def heardAnswer (n : LineId) (x : Exchange) (f : List Byte) : Instr :=
  .lineAnswerReceived n (byteOf x.node :: x.number :: f ++ [crc8 (byteOf x.node :: x.number :: f)])

/-- The state a verdict gives its entry (R113, R115): FAULTED when the policy halts it, else the recharge or READY. -/
def afterVerdict (s : State) (i : EntryId) (k : Kind) (v : Verdict) (e : Nat) : EntryState :=
  let left := verdictRecharge ((s.group (s.entry i).group).rechargeHours * 60) (s.entry i).rated e k v
  if s.halts v then .faulted else if left = 0 then .ready else .recharging left

/-- A completed capture (R166): the record kept with the answer, CAPTURE_HIT raised, and with RECORD_HOLD the entry of
the request held while it is in use with the target campus number. -/
def CaptureCompleted (s t : State) (record : CaptureRecord) (i : EntryId) (a : CaptureAnswer) : Prop :=
  t.capture.state = .idle (some { record with answer := some a }) ∧ t.flag .captureHit = true ∧
  (t.entry i).held = ((s.entry i).held || decide (s.capture.action = .recordHold ∧ (s.entry i).inUse = true ∧
    (s.entry i).cln = s.capture.target))

/-- The states from which a head-end start needs no override (R104). -/
def StartableFrom (st : EntryState) : Prop := st = .ready ∨ (∃ left, st = .backoff left) ∨ st = .faulted

/-- The state of an entry and the quota of its group permit a head-end start (the table of R104). -/
def StartPermitted (s : State) (e : Entry) (override : Bool) : Prop :=
  (StartableFrom e.state ∧ (override = true ∨ s.outOfService e.group < s.quota e.group)) ∨
    ((∃ left, e.state = .recharging left) ∧ override = true)

/-- A well-formed request for an entry passes the first three checks of R160 and cancels nothing (R107). -/
def LampPasses (s : State) (e : Entry) (name : ReqName) (override : Bool) : Prop :=
  e.barred = false ∧ (name = .setParam ∨ name = .setRest → e.locked = false) ∧
  (name = .startFunction ∨ name = .startDuration → StartPermitted s e override ∧ s.lineActive e.line < 12) ∧
  (name = .stopTest → ∀ u, e.state = .pending u → u.startSent = true)

/-- How many turns after the waiter last granted another waiter stands in the rotation (R156). -/
def turn (last w : Waiter) : Nat := (w.place + 8 - last.place) % 9

/-- What each waiter waits with (R156): the Lamp Path with a request it could not answer, the Management Engine with an
answer, a line with a backlog, the Event Unit with a pending notice. -/
def Waits (b : State) : Waiter → Prop
  | .lampPath => b.lampWaiting = true
  | .management => ∃ answer, b.mgmt = .answering answer
  | .backlog n => (b.line n).backlog ≠ []
  | .eventUnit => b.noticePending = true

/-- The waiter a free place goes to: it waits, and none that waits stands nearer behind the one last granted (R156). -/
def FirstWaiter (b : State) (w : Waiter) : Prop := Waits b w ∧ ∀ v, Waits b v → turn b.rotation w ≤ turn b.rotation v

/-- A status block shows the flags and the live conditions of a state at the places of section 12.3 (R174, R183). -/
def StatusShows (s : State) (b : List Byte) : Prop :=
  natAt b 0 2 = s.flags.toNat ∧
  ((byteAt b 2).getLsbD 0 = s.clockValid ∧ (byteAt b 2).getLsbD 1 = s.calendarValid ∧
    (byteAt b 2).getLsbD 2 = s.armed ∧ (byteAt b 2).getLsbD 3 = s.save.isSome ∧
    ∀ k, 4 ≤ k → (byteAt b 2).getLsbD k = false) ∧
  byteAt b 3 = (match s.passState with
    | .idle => 0
    | .walking _ => 1
    | .admitting => 2) ∧
  natAt b 4 4 = s.minute % 4294967296 ∧ byteAt b 8 = byteOf s.rx.length ∧ byteAt b 9 = byteOf s.tx.length ∧
  (∀ k : Fin 7, byteAt b (10 + k.val) = byteOf (s.count fun e => e.inUse && e.state.code == k.val)) ∧
  byteAt b 17 = byteOf (s.count fun e => e.inUse && e.touched) ∧
  ∀ n : LineId,
    byteAt b (18 + 10 * n.val) = boolByte (s.inOutage n) ∧
    natAt b (19 + 10 * n.val) 2 = (s.mainsLine n).outageMinutes % 65536 ∧
    natAt b (21 + 10 * n.val) 2 = (s.mainsLine n).holdOff % 65536 ∧
    byteAt b (23 + 10 * n.val) = (match (s.line n).engine with
      | .idle => 0
      | .sending _ => 1
      | .awaiting _ _ => 2
      | .holding => 3
      | .gap => 4
      | .down => 5) ∧
    byteAt b (24 + 10 * n.val) = byteOf (s.lineActive n) ∧
    byteAt b (25 + 10 * n.val) = byteOf (s.line n).pass.length ∧
    byteAt b (26 + 10 * n.val) = byteOf (s.line n).control.length ∧
    byteAt b (27 + 10 * n.val) = byteOf (s.line n).backlog.length

/-! ### Records and blocks as bytes -/

/-- The codes of section 12.6, each list in its table's order, and the two byte orders (section 12). -/
def CodeTables : Prop :=
  [Verdict.pass, .marginal, .short, .lamp, .overrun, .noVerdict, .noContact, .refused, .abortedHeadend,
    .abortedOutage].map Verdict.code = [1, 2, 3, 4, 5, 6, 7, 8, 9, 10] ∧
  [BlockReason.cleared, .calendar, .quota, .lineLimit, .controlFull, .outage, .lineDown, .held, .aborted].map
    BlockReason.code = [1, 2, 3, 4, 5, 6, 7, 8, 9] ∧
  [ReqName.probe, .readParam, .identify, .startFunction, .startDuration, .stopTest, .setParam, .setRest].map
    ReqName.code = [1, 2, 3, 4, 5, 6, 7, 8] ∧
  [LampCode.ok, .noAnswer, .badAnswer, .aborted, .lineDown, .cancelled, .unknown, .badRequest, .barred, .locked, .busy,
    .quota, .activeLimit, .lineFull].map LampCode.code = [0, 1, 2, 3, 4, 5, 6, 7, 8, 9, 10, 11, 12, 13] ∧
  [MgmtCode.ok, .unknownTable, .indexRange, .badValue, .duplicate, .busy, .tableFull, .imageBusy].map MgmtCode.code =
    [0, 1, 2, 3, 4, 5, 6, 7] ∧
  ∀ n, beBytes 2 n = [byteOf (n / 256), byteOf n] ∧
    beBytes 4 n = [byteOf (n / 16777216), byteOf (n / 65536), byteOf (n / 256), byteOf n]

/-- A time field as sent: 0 and four bytes the spec does not state (log 11), or 1 and the minute (section 12). -/
def TimeField (time : Option Nat) (b : List Byte) : Prop :=
  match time with
  | none => ∃ rest, rest.length = 4 ∧ b = 0 :: rest
  | some m => b = 1 :: beBytes 4 m

/-- The 20 bytes of a MAP read record that show the state: its code, the current test, recharge left and retry left, an
absent test's fields being unstated (R10, R12, section 12.4, log 11). -/
def StateField (state : EntryState) (b : List Byte) : Prop :=
  let idle (code : Byte) (recharge retry : Nat) : Prop := ∃ rest : List Byte, rest.length = 14 ∧
    b = [code, 0] ++ rest ++ beBytes 2 recharge ++ beBytes 2 retry
  let underTest (code : Byte) (u : CurrentTest) : Prop := ∃ started, TimeField u.startedAt started ∧
    b = [code, 1, if u.kind = .function then 1 else 2, if u.origin = .scheduler then 1 else 2] ++ started ++
      [byteOf u.remaining, byteOf u.remainingAtStart, byteOf u.missed] ++ beBytes 2 u.pollDue ++
      [if u.stopRequested then 1 else 0, if u.startSent then 1 else 0] ++ [0, 0, 0, 0]
  match state with
  | .ready => idle 0 0 0
  | .pending u => underTest 1 u
  | .testing u => underTest 2 u
  | .ending u => underTest 3 u
  | .recharging left => idle 4 left 0
  | .backoff left => idle 5 0 left
  | .faulted => idle 6 0 0

/-- A last verdict in a record: its code and the kind of its test, or 0 and a byte not stated (section 12.4, log 11). -/
def VerdictField (verdict : Option (Verdict × Kind)) (b : List Byte) : Prop :=
  match verdict with
  | none => ∃ kind, b = [0, kind]
  | some (v, k) => b = [byteOf v.code, if k = .function then 1 else 2]

/-- A MAP read record, byte by byte (R20, section 12.4). -/
def MapReadForm (e : Entry) (i : EntryId) (b : List Byte) : Prop :=
  let block : Byte := match e.lastBlock with
    | none => 0
    | some r => byteOf r.code
  ∃ added lastFunction lastDuration state verdict, TimeField e.addedAt added ∧
    TimeField e.lastFunctionEnd lastFunction ∧ TimeField e.lastDurationEnd lastDuration ∧
    StateField e.state state ∧ VerdictField e.lastVerdict verdict ∧
    b = [byteOf i.val, 0, if e.inUse then 1 else 0] ++ beBytes 4 e.cln ++
      [byteOf e.line.val, byteOf e.node, byteOf e.group.val, byteOf e.battery.val, byteOf e.rated,
        byteOf (e.locked.toNat + 2 * e.barred.toNat + 4 * e.held.toNat + 8 * e.touched.toNat)] ++
      added ++ lastFunction ++ lastDuration ++ state ++ verdict ++
      [block, byteOf (e.overdueFunction.toNat + 2 * e.overdueDuration.toNat), byteOf e.attempts]

/-- The records of the eight tables as READ_TABLE returns them, byte by byte (R20, R35, R46, R51, R111, R115, R145, R173,
section 12.4): N, O and Q in a GROUP record, the written mark in a CALENDAR record, the strap number and the station
address in the BRIDGE record. -/
def ReadForms (s : State) : Prop :=
  (∀ i : EntryId, MapReadForm (s.entry i) i (s.readRecord .map i.val)) ∧
  (∀ k : Fin 32, let g := s.group k
    s.readRecord .group k.val = [byteOf k.val, byteOf g.quotaPercent, byteOf g.weight, byteOf g.occupancy.val,
      byteOf g.functionInterval, byteOf g.functionTolerance] ++ beBytes 2 g.durationInterval ++
      [byteOf g.durationTolerance, byteOf g.rechargeHours, byteOf (s.members k), byteOf (s.outOfService k),
        byteOf (s.quota k)]) ∧
  (∀ row : Fin 7, s.readRecord .calendar row.val =
    [byteOf row.val, if s.rows[row].written then 1 else 0] ++ s.rows[row].masks.toList) ∧
  (∀ k b, s.blackouts[k]? = some b →
    s.readRecord .blackout k = beBytes 4 b.start ++ beBytes 4 b.stop ++ [b.classes]) ∧
  (∀ c : Fin 16, s.readRecord .criteria c.val = byteOf c.val :: beBytes 2 s.criteria[c]) ∧
  (∀ k : Fin 8, s.readRecord .policy k.val = [byteOf k.val, if s.policy[k] then 1 else 0]) ∧
  (∀ n : LineId, let l := (s.line n).settings
    s.readRecord .line n.val = [byteOf n.val, byteOf l.replyWindow, byteOf l.attempts] ++ beBytes 2 l.pollPeriod) ∧
  let b := s.settings
  s.readRecord .bridge 0 = [0, if b.schedulerEnable then 1 else 0, byteOf b.passInterval, byteOf b.grace,
    byteOf b.maxAttempts, byteOf b.backoffBase, byteOf b.debounce] ++ beBytes 2 b.holdOff ++
    beBytes 2 b.lightingType.toNat ++ [byteOf b.filterMode.val] ++ beBytes 6 b.reportAddress.toNat ++
    beBytes 2 b.notifyMask.toNat ++ [s.strap, 0x02, 0xA7, 0x3C, 0, 0, s.strap]

/-- The answer in a capture record, 10 bytes (section 12.3): the LAMP answer code, 0 for a node's answer, 14 for
WITHDRAWN, 255 while there is none; then the length of the node's answer and its bytes, the rest not stated (log 11). -/
def CaptureAnswerField (answer : Option CaptureAnswer) (b : List Byte) : Prop :=
  let shows (code : Byte) (node : List Byte) : Prop :=
    ∃ rest : List Byte, rest.length = 8 - node.length ∧ b = [code, byteOf node.length] ++ node ++ rest
  match answer with
  | none => shows 255 []
  | some (.node bytes) => shows 0 bytes
  | some (.outcome c) => shows (byteOf c.code) []
  | some .withdrawn => shows 14 []

/-- The capture block, byte by byte (R163, R174, section 12.3); its record fields are 0 when the record is absent. -/
def CaptureShows (c : Capture) (b : List Byte) : Prop :=
  let mode : Byte := match c.mode with
    | .off => 0
    | .any => 1
    | .change => 2
    | .test => 3
  let shows (state : Byte) (record : Option CaptureRecord) : Prop := ∃ fields : List Byte,
    b = [state] ++ beBytes 4 c.target ++ [mode, if c.action = .record then 0 else 1] ++ fields ∧
    (record = none → fields = List.replicate 23 0) ∧
    ∀ r, record = some r → ∃ clock answer, TimeField r.clock clock ∧ CaptureAnswerField r.answer answer ∧
      fields = [1, if r.origin = .headend then 1 else 2, byteOf r.name.code, r.arg.b0, r.arg.b1, r.arg.b2,
        byteOf r.line.val, byteOf r.node] ++ clock ++ answer
  match c.state with
  | .idle record => shows 0 record
  | .watching => shows 1 none
  | .opened record _ => shows 2 (some record)

/-- `t` is `b` with the free place taken by a waiter other than the Lamp Path (R140, R156, R168, R185): the Management
Engine places its answer, a line the head of its backlog, the Event Unit a NOTICE that shows the status of `b`; the
rotation pointer moves to the waiter. -/
def PlaceTaken (b t : State) (w : Waiter) : Prop :=
  w ≠ .lampPath ∧
  (w = .management → ∃ answer, b.mgmt = .answering answer ∧
    t = { b with tx := b.tx ++ [answer], mgmt := .idle, rotation := .management }) ∧
  (∀ n, w = .backlog n → ∃ g back, (b.line n).backlog = g :: back ∧ t =
    { b with
      tx := b.tx ++ [g], rotation := .backlog n
      lines := b.lines.set n { b.line n with
        backlog := back
        engine := if back = [] ∧ (b.line n).engine = .holding then .gap else (b.line n).engine } }) ∧
  (w = .eventUnit → ∃ g, g.kind = .notice ∧ g.tag = b.noticeNumber + 1 ∧ g.dest = b.settings.reportAddress ∧
    g.source = stationAddressOf b.strap ∧ g.etype = b.settings.lightingType ∧ g.body.length = 78 ∧
    StatusShows b g.body ∧ t =
      { b with
        tx := b.tx ++ [g], noticePending := false, noticeNumber := b.noticeNumber + 1, rotation := .eventUnit })

/-- The lengths of the written records by table code 1 to 8 (section 12.4); no table has code 0. -/
def recordLengths : List Nat := [0, 28, 13, 50, 9, 3, 2, 5, 27]

/-- The body lengths of MGMT requests (R187, section 12.3): by request code; of a WRITE_TABLE by its table's record length
and its count, which is at most 16, or with an unknown table code at least 3; of an unknown request at least 1. -/
def MgmtLength (body : List Byte) : Prop :=
  let code := (byteAt body 0).toNat
  let table := (byteAt body 1).toNat
  let count := (byteAt body 2).toNat
  1 ≤ body.length ∧ (code ∈ [16, 17, 23, 26, 27] → body.length = 1) ∧
  (code ∈ [4, 18, 19, 20, 21, 24, 25] → body.length = 2) ∧ (code = 28 → body.length = 3) ∧
  (code = 1 → body.length = 4) ∧ (code = 3 → body.length = 5) ∧ (code = 22 → body.length = 7) ∧
  (code = 2 → 3 ≤ body.length ∧ ∀ length, recordLengths[table]? = some length → 0 < table →
    count ≤ 16 ∧ body.length = 3 + count * length)

/-- The tables by their codes 1 to 8 (section 12.6). -/
def TableCodes : Prop :=
  [1, 2, 3, 4, 5, 6, 7, 8].map Table.ofCode = [some .map, some .group, some .calendar, some .blackout,
    some .criteria, some .policy, some .line, some .bridge] ∧ ∀ k, k = 0 ∨ 8 < k → Table.ofCode k = none

/-- A time field as sent: a presence byte, 0 for absent, and a minute (section 12). -/
def timeOf (present : Byte) (m : Nat) : Option Nat := if present = 0 then none else some m

/-- A written MAP record, byte by byte, and what it is read as (section 12.4): the selection bits 0 to 4, the yes/no byte
in use, the flag bits 0 to 2, and three time fields. -/
def MapWriteForm : Prop :=
  ∀ (index select inUse line node group battery rated flags p1 p2 p3 : Byte) (cln t1 t2 t3 : Nat),
    cln < 4294967296 → t1 < 4294967296 → t2 < 4294967296 → t3 < 4294967296 →
    parseRecord .map ([index, select, inUse] ++ beBytes 4 cln ++ [line, node, group, battery, rated, flags] ++
        p1 :: beBytes 4 t1 ++ p2 :: beBytes 4 t2 ++ p3 :: beBytes 4 t3) = .map
      { index := index.toNat, identity := select.getLsbD 0, membership := select.getLsbD 1,
        ratings := select.getLsbD 2, flags := select.getLsbD 3, history := select.getLsbD 4,
        inUse := decide (inUse ≠ 0), cln := cln, line := line.toNat, node := node.toNat, group := group.toNat,
        battery := battery.toNat, rated := rated.toNat, locked := flags.getLsbD 0, barred := flags.getLsbD 1,
        held := flags.getLsbD 2, addedAt := timeOf p1 t1, lastFunctionEnd := timeOf p2 t2,
        lastDurationEnd := timeOf p3 t3 }

/-- The written records of the other seven tables, byte by byte, and what they are read as (section 12.4); the counts of a
GROUP record, the written mark of a row and the station fields of a BRIDGE record are not read. -/
def TableWriteForms : Prop :=
  (∀ index quota weight occupancy fi ft dt hours n o q : Byte, ∀ di, di < 65536 →
    parseRecord .group ([index, quota, weight, occupancy, fi, ft] ++ beBytes 2 di ++ [dt, hours, n, o, q]) = .group
      { index := index.toNat, quotaPercent := quota.toNat, weight := weight.toNat, occupancy := occupancy.toNat,
        functionInterval := fi.toNat, functionTolerance := ft.toNat, durationInterval := di,
        durationTolerance := dt.toNat, rechargeHours := hours.toNat }) ∧
  (∀ (row written : Byte) (masks : Vector Byte 48),
    parseRecord .calendar (row :: written :: masks.toList) = .calendar { row := row.toNat, masks := masks }) ∧
  (∀ (start stop : Nat) (classes : Byte), start < 4294967296 → stop < 4294967296 →
    parseRecord .blackout (beBytes 4 start ++ beBytes 4 stop ++ [classes]) =
      .blackout { start := start, stop := stop, classes := classes }) ∧
  (∀ (battery : Byte) (v : Nat), v < 65536 →
    parseRecord .criteria (battery :: beBytes 2 v) = .criteria battery.toNat v) ∧
  (∀ k halt : Byte, parseRecord .policy [k, halt] = .policy k.toNat (decide (halt ≠ 0))) ∧
  (∀ (line window attempts : Byte) (period : Nat), period < 65536 →
    parseRecord .line ([line, window, attempts] ++ beBytes 2 period) = .line
      { line := line.toNat, replyWindow := window.toNat, attempts := attempts.toNat, pollPeriod := period }) ∧
  ∀ (index enable interval grace attempts base debounce mode strap : Byte) (holdOff : Nat) (type : BitVec 16)
      (report station : Mac) (mask : Nat), holdOff < 65536 → mask < 65536 →
    parseRecord .bridge ([index, enable, interval, grace, attempts, base, debounce] ++ beBytes 2 holdOff ++
        beBytes 2 type.toNat ++ [mode] ++ beBytes 6 report.toNat ++ beBytes 2 mask ++ [strap] ++
        beBytes 6 station.toNat) = .bridge
      { index := index.toNat, schedulerEnable := decide (enable ≠ 0), passInterval := interval.toNat,
        grace := grace.toNat, maxAttempts := attempts.toNat, backoffBase := base.toNat,
        debounce := debounce.toNat, holdOff := holdOff, lightingType := type, filterMode := mode.toNat,
        reportAddress := report, notifyMask := BitVec.ofNat 14 mask }

/-- The image in the flash is bad before its records are looked at (R180, section 12.4): the marker or the format version
is another, the stated length does not fit the image area, or the CRC-32 over header and contents disagrees with the one
held. -/
def ImageFrameBad (flash : List Byte) : Prop :=
  let length := natAt (flashRead flash 5 4) 0 4
  flashRead flash 0 5 ≠ [0x48, 0x57, 0x36, 0x32, 1] ∨ imageArea < 9 + length + 4 ∨
    beBytes 4 (crc32 (flashRead flash 0 (9 + length))).toNat ≠ flashRead flash (9 + length) 4

/-- What an image holds of each item, in the order a save reads them (R178, section 12.4): the table's code and record
count, then its records in read form, a GROUP record without its counts, a MAP record without its current test, its
recharge left and its retry left, its state READY or FAULTED. A row's written byte is free (log 11). -/
def ImageItems (s : State) : Prop :=
  s.itemBytes .bridge = [8, 1] ++ s.readRecord .bridge 0 ∧
  s.itemBytes .line = [7, 6] ++ (List.range 6).flatMap (s.readRecord .line) ∧
  s.itemBytes .policy = [6, 8] ++ (List.range 8).flatMap (s.readRecord .policy) ∧
  s.itemBytes .criteria = [5, 16] ++ (List.range 16).flatMap (s.readRecord .criteria) ∧
  s.itemBytes .group = [2, 32] ++ (List.range 32).flatMap (fun k => (s.readRecord .group k).take 10 ++ [0, 0, 0]) ∧
  (∀ row : Fin 7, ∃ written : Byte, s.itemBytes (.calendar row) =
    (if row = 0 then [3, 7] else []) ++ [byteOf row.val, written] ++ s.rows[row].masks.toList) ∧
  s.itemBytes .blackout = [4, byteOf s.blackouts.length] ++
    s.blackouts.flatMap (fun b => beBytes 4 b.start ++ beBytes 4 b.stop ++ [b.classes]) ∧
  ∀ i : EntryId, s.itemBytes (.map i) = (if i = 0 then [1, 240] else []) ++ (s.readRecord .map i.val).take 28 ++
    [if (s.entry i).state = .faulted then 6 else 0] ++ List.replicate 19 0 ++ (s.readRecord .map i.val).drop 48

/-- The items of a save in the order of R178. -/
def saveOrder : List SaveItem :=
  [.bridge, .line, .policy, .criteria, .group] ++ (List.finRange 7).map .calendar ++ [.blackout] ++
    (List.finRange 240).map .map

/-- The image a save writes of a state that keeps its tables while the save runs (R178, R179, section 12.4): marker,
version and content length, the items in order, and the CRC-32 over all of it. -/
def savedImage (s : State) : List Byte :=
  let content := saveOrder.flatMap s.itemBytes
  let image := [0x48, 0x57, 0x36, 0x32, 1] ++ beBytes 4 content.length ++ content
  image ++ beBytes 4 (crc32 image).toNat

/-- What a save keeps whole: tables and entries in their ranges, the map unique, the blackout list in its law, every time
a campus minute of 32 bits (R38, R47). -/
def Savable (s : State) : Prop :=
  TablesInRange s ∧ EntriesInRange s ∧ MapUnique s ∧ BlackoutLaw s ∧ (∀ b ∈ s.blackouts, b.stop < 4294967296) ∧
  ∀ (i : EntryId) (m : Nat), (s.entry i).addedAt = some m ∨ (s.entry i).lastFunctionEnd = some m ∨
    (s.entry i).lastDurationEnd = some m → m < 4294967296

/-- An entry as it comes up from its image record: everything as saved but its state, which is FAULTED or READY (R21). -/
def loadedEntry (e : Entry) : Entry := { e with state := if e.state = .faulted then .faulted else .ready }

/-- `t` is `b` but for what raising a flag changes. -/
def OnlyFlagsDiffer (b t : State) : Prop :=
  t = { b with flags := t.flags, noticePending := t.noticePending, noticeOwed := t.noticeOwed }

/-- The tables of settings are the same. -/
def SameTables (s t : State) : Prop :=
  t.groups = s.groups ∧ t.criteria = s.criteria ∧ t.policy = s.policy ∧ t.rows = s.rows ∧
  t.blackouts = s.blackouts ∧ t.settings = s.settings ∧ ∀ n : LineId, (t.line n).settings = (s.line n).settings

/-- The Campus Clock is the same. -/
def SameClock (s t : State) : Prop := t.minute = s.minute ∧ t.clockValid = s.clockValid ∧ t.seconds = s.seconds

/-- The Scheduler is the same. -/
def SameScheduler (s t : State) : Prop := t.passTimer = s.passTimer ∧ t.passState = s.passState ∧ t.plan = s.plan

/-- The Image Store and its flash are the same. -/
def SameImage (s t : State) : Prop := t.save = s.save ∧ t.flash = s.flash

/-- The Trunk Port but for its transmit queue is the same. -/
def SameInbound (s t : State) : Prop :=
  t.strap = s.strap ∧ t.portOpen = s.portOpen ∧ t.linkUp = s.linkUp ∧ t.rx = s.rx ∧ t.rotation = s.rotation ∧
  t.lampWaiting = s.lampWaiting

/-- Two entries agree in what only a management write gives an entry (R2, R6, R7, R14). -/
def SameIdentity (e f : Entry) : Prop :=
  f.inUse = e.inUse ∧ f.cln = e.cln ∧ f.line = e.line ∧ f.node = e.node ∧ f.group = e.group ∧
  f.battery = e.battery ∧ f.rated = e.rated ∧ f.locked = e.locked ∧ f.barred = e.barred

/-- Every entry keeps what only a management write gives it. -/
def SameMap (s t : State) : Prop := ∀ i : EntryId, SameIdentity (s.entry i) (t.entry i)

/-! ### Which commands act on which unit -/

/-- The commands that may change the receive queue. POWER_UP changes every unit. -/
def actsOnReceive : Instr → Bool
  | .powerUp _ _ _ | .frameArrival _ | .frameSent | .lampRequestTake | .mgmtRequestTake | .bridgeReset => true
  | _ => false

/-- The commands that may change the transmit queue. POWER_UP changes every unit. -/
def actsOnTransmit : Instr → Bool
  | .powerUp _ _ _ | .lineAnswerReceived _ _ | .replyWindowClose _ _ | .frameSent | .noticeBuild |
    .backlogAnswerPlace _ | .lampRequestTake | .mgmtRequestTake | .mgmtAnswerPlace | .readTable | .writeTable |
    .mapRecord | .groupRecord | .calendarRecord | .blackoutInsert | .blackoutRemove | .criteriaRecord |
    .policyRecord | .lineRecord | .bridgeRecord | .setClock | .readStatus | .schedOn | .schedOff | .clearFault |
    .setHold | .clearHold | .clearTouched | .armCapture | .disarmCapture | .lineAbort | .lineReset |
    .bridgeReset | .saveImage | .clearEvents => true
  | _ => false

/-- The commands that may change the Lamp Path's wait. POWER_UP changes every unit. -/
def actsOnLampPath : Instr → Bool
  | .powerUp _ _ _ | .frameSent | .lampRequestTake | .bridgeReset => true
  | _ => false

/-- The commands that may change the Management Engine. POWER_UP changes every unit. -/
def actsOnManagement : Instr → Bool
  | .powerUp _ _ _ | .frameSent | .mgmtRequestTake | .mgmtAnswerPlace | .readTable | .writeTable | .mapRecord |
    .groupRecord | .calendarRecord | .blackoutInsert | .blackoutRemove | .criteriaRecord | .policyRecord |
    .lineRecord | .bridgeRecord | .setClock | .readStatus | .schedOn | .schedOff | .clearFault | .setHold |
    .clearHold | .clearTouched | .armCapture | .disarmCapture | .lineAbort | .lineReset | .bridgeReset |
    .saveImage | .clearEvents => true
  | _ => false

/-- The commands that may change the pass state and the plan list. POWER_UP changes every unit. -/
def actsOnPass : Instr → Bool
  | .powerUp _ _ _ | .minuteEvent | .passTimerExpiry | .walkEntry | .admission | .bridgeRecord | .schedOff |
    .bridgeReset => true
  | _ => false

/-- The commands that may change the pass timer. POWER_UP changes every unit. -/
def actsOnPassTimer : Instr → Bool
  | .powerUp _ _ _ | .minuteEvent | .passTimerExpiry | .bridgeReset => true
  | _ => false

/-- The commands that may change Mains Sense. POWER_UP changes every unit. -/
def actsOnMains : Instr → Bool
  | .powerUp _ _ _ | .minuteEvent | .holdOffEnd _ | .mainsSenseChange _ _ | .debouncedLoss _ |
    .debouncedRestore _ => true
  | _ => false

/-- The commands that may change the progress of an image save. POWER_UP changes every unit. -/
def actsOnSave : Instr → Bool
  | .powerUp _ _ _ | .saveImage | .imageSaveRead | .flashOpDone _ | .flashOpTimeout => true
  | _ => false

/-- The commands that may change the entries of the map. POWER_UP changes every unit. -/
def actsOnEntries : Instr → Bool
  | .powerUp _ _ _ | .minuteEvent | .walkEntry | .admission | .pollDue _ | .remainingMinutesOut _ |
    .rechargeEnd _ | .backoffEnd _ | .debouncedLoss _ | .debouncedRestore _ | .lineSupplyFault _ |
    .supplySenseRead _ _ | .lineAnswerReceived _ _ | .replyWindowClose _ _ | .gapEnd _ | .lampRequestTake |
    .frameSent | .mapRecord | .clearFault | .setHold | .clearHold | .clearTouched | .lineAbort | .lineReset |
    .bridgeReset => true
  | _ => false

/-- The commands that may change the Line Engines. POWER_UP changes every unit. -/
def actsOnLines : Instr → Bool
  | .powerUp _ _ _ | .minuteEvent | .admission | .pollDue _ | .remainingMinutesOut _ | .debouncedLoss _ |
    .supplyRetry _ | .requestSent _ | .gapEnd _ | .lineSupplyFault _ | .supplySenseRead _ _ |
    .lineAnswerReceived _ _ | .replyWindowClose _ _ | .frameSent | .backlogAnswerPlace _ | .lampRequestTake |
    .lineRecord | .lineAbort | .lineReset | .bridgeReset => true
  | _ => false

/-- The commands that may change the Capture Unit. POWER_UP changes every unit. -/
def actsOnCapture : Instr → Bool
  | .powerUp _ _ _ | .minuteEvent | .admission | .pollDue _ | .remainingMinutesOut _ | .debouncedLoss _ |
    .gapEnd _ | .lineSupplyFault _ | .supplySenseRead _ _ | .lineAnswerReceived _ _ | .replyWindowClose _ _ |
    .frameSent | .lampRequestTake | .lineAbort | .lineReset | .bridgeReset | .armCapture | .disarmCapture => true
  | _ => false

/-- The commands that may change the event flags. POWER_UP changes every unit. -/
def actsOnFlags : Instr → Bool
  | .powerUp _ _ _ | .minuteEvent | .walkEntry | .remainingMinutesOut _ | .debouncedLoss _ | .debouncedRestore _ |
    .lineSupplyFault _ | .supplySenseRead _ _ | .lineAnswerReceived _ _ | .replyWindowClose _ _ |
    .frameArrival _ | .lampRequestTake | .frameSent | .setClock | .readStatus | .clearEvents | .lineAbort |
    .lineReset | .flashOpDone _ | .flashOpTimeout => true
  | _ => false

/-- The commands that may change the notice marks. POWER_UP changes every unit. -/
def actsOnNotice : Instr → Bool
  | .powerUp _ _ _ | .minuteEvent | .walkEntry | .remainingMinutesOut _ | .debouncedLoss _ | .debouncedRestore _ |
    .lineSupplyFault _ | .supplySenseRead _ _ | .lineAnswerReceived _ _ | .replyWindowClose _ _ |
    .frameArrival _ | .lampRequestTake | .frameSent | .noticeBuild | .lineAbort | .lineReset | .bridgeReset |
    .bridgeRecord | .flashOpDone _ | .flashOpTimeout => true
  | _ => false

/-- The one line a command of a line acts on. -/
def lineActedOn : Instr → Option LineId
  | .debouncedLoss n => some n
  | .lineSupplyFault n => some n
  | .supplyRetry n => some n
  | .supplySenseRead n _ => some n
  | .requestSent n => some n
  | .lineAnswerReceived n _ => some n
  | .replyWindowClose n _ => some n
  | .gapEnd n => some n
  | .backlogAnswerPlace n => some n
  | _ => none

/-- The units a command does not act on are as they were. -/
def UnitsKept (c : Instr) (s t : State) : Prop :=
  (actsOnReceive c = false → t.rx = s.rx) ∧ (actsOnTransmit c = false → t.tx = s.tx) ∧
  (actsOnLampPath c = false → t.lampWaiting = s.lampWaiting ∧ (c ≠ .noticeBuild → t.noticeNumber = s.noticeNumber)) ∧
  (actsOnManagement c = false → t.mgmt = s.mgmt) ∧
  (actsOnPass c = false → t.passState = s.passState ∧ t.plan = s.plan) ∧
  (actsOnPassTimer c = false → t.passTimer = s.passTimer) ∧ (actsOnMains c = false → t.mains = s.mains) ∧
  (actsOnSave c = false → t.save = s.save) ∧ (actsOnEntries c = false → t.entries = s.entries) ∧
  (actsOnLines c = false → t.lines = s.lines) ∧ (∀ n, lineActedOn c = some n → ∀ m, m ≠ n → t.line m = s.line m) ∧
  (actsOnCapture c = false → t.capture = s.capture) ∧ (actsOnFlags c = false → t.flags = s.flags) ∧
  (actsOnNotice c = false → t.noticePending = s.noticePending ∧ t.noticeOwed = s.noticeOwed)

end Sys2Proof.Machine.Safety
end

