-- ==== Sys2Proof/Certificates/Slice0/Obligations.lean ====
section
/-! DEFINITION. The statements about the HW624 for the provers. -/

section Statements

open Sys2Proof Sys2Proof.Machine Sys2Proof.Machine.Safety

/-! ### The step -/

/-- A step takes the command at the front of the queue and runs it on the state with the queue's rest. -/
def Obligations.StepRunsFrontCommand : Prop :=
  ∀ (c : Instr) (s : State), step { s with pending := c :: s.pending } = exec c s

/-- With no command waiting one second passes (the model's choice, log 4): the seconds phase rises, and its 60th second
is a minute event, which raises a valid clock below its maximum (R38, R39). The poll due of a TESTING entry is lowered
by one and at 0 reloaded with its line's poll period, a PROBE for it waiting or in flight (R96); a running debounce
timer is lowered by one, and at 0 the debounced event is taken, a loss ending a test ABORTED_OUTAGE, a restore starting
the hold-off (R122, R123, R127, R129); a supply retry timer is lowered by one, and at 0 the supply goes on and its sense
is to be read (R147). That within the second the polls come first, then the debounce timers, the retry timers and the
phase, is log 4. -/
def Obligations.IdleStepIsOneSecond : Prop :=
  ∀ s : State, s.pending = [] → s.seconds ≤ 59 → ∃ t, step s = .next t ∧ t.pending = [] ∧
    (s.seconds < 59 → t.seconds = s.seconds + 1 ∧ t.minute = s.minute) ∧
    (s.seconds = 59 → t.seconds = 0 ∧
      t.minute = if s.clockValid = true ∧ s.minute < maxMinute then s.minute + 1 else s.minute) ∧
    (∀ (i : EntryId) (u : CurrentTest), (s.entry i).state = .testing u →
      let n := (s.entry i).line
      let lossDue := ∃ k, (s.mainsLine n).sense = .lossPending k ∧ k ≤ 1
      let remaining := if s.seconds = 59 then u.remaining - 1 else u.remaining
      (lossDue → (s.entry i).inUse = true → (t.entry i).lastVerdict = some (.abortedOutage, u.kind)) ∧
      (¬lossDue → s.seconds < 59 ∨ 2 ≤ u.remaining →
        (2 ≤ u.pollDue →
          (t.entry i).state = .testing { u with remaining := remaining, pollDue := u.pollDue - 1 }) ∧
        (u.pollDue ≤ 1 →
          (t.entry i).state =
            .testing { u with remaining := remaining, pollDue := (s.line n).settings.pollPeriod } ∧
          ((∃ p ∈ (t.line n).polls, p.entry = i) ∨
            ∃ x p, (t.line n).engine.exchange = some x ∧ x.work = .poll p ∧ p.entry = i)))) ∧
    ∀ n : LineId,
      (∀ k, (s.mainsLine n).sense = .lossPending k →
        (2 ≤ k → (t.mainsLine n).sense = .lossPending (k - 1)) ∧
        (k ≤ 1 → (t.mainsLine n).sense = .absent ∧ t.flag .outageStart = true)) ∧
      (∀ k, (s.mainsLine n).sense = .restorePending k →
        (2 ≤ k → (t.mainsLine n).sense = .restorePending (k - 1)) ∧
        (k ≤ 1 → (t.mainsLine n).sense = .present ∧ t.flag .outageEnd = true ∧
          (t.mainsLine n).holdOff = if s.seconds = 59 then s.settings.holdOff - 1 else s.settings.holdOff)) ∧
      ((s.mainsLine n).sense = .present ∨ (s.mainsLine n).sense = .absent →
        (t.mainsLine n).sense = (s.mainsLine n).sense) ∧
      ((s.line n).retryTimer = none → (t.line n).retryTimer = none) ∧
      ∀ k, (s.line n).retryTimer = some k →
        (2 ≤ k → (t.line n).retryTimer = some (k - 1)) ∧
        (k ≤ 1 → (s.line n).engine = .down → (s.line n).supplyOn = false →
          (t.line n).supplyOn = true ∧ (t.line n).retryTimer = none ∧ (t.line n).senseDue = true)

/-- Every command ends in a next state, with the queue of waiting commands as it was and every unit it does not act on
as it was; a command of one line leaves the other lines; and each table, the clock, the flash and what only a management
write gives an entry change only under the commands named. That a command with no occasion answers a next state and
changes nothing is the model's choice, log 1; that the flash is empty from SAVE_IMAGE on is log 14. -/
def Obligations.EveryCommandCompletesInItsFrame : Prop :=
  ∀ (c : Instr) (s : State), ∃ t, exec c s = .next t ∧ t.pending = s.pending ∧ UnitsKept c s t ∧
    ((∀ st f p, c ≠ .powerUp st f p) →
      t.strap = s.strap ∧ t.portOpen = s.portOpen ∧
      (c ≠ .groupRecord → t.groups = s.groups) ∧
      (c ≠ .criteriaRecord → t.criteria = s.criteria) ∧
      (c ≠ .policyRecord → t.policy = s.policy) ∧
      (c ≠ .calendarRecord → t.rows = s.rows) ∧
      (c ≠ .lineRecord → ∀ n : LineId, (t.line n).settings = (s.line n).settings) ∧
      (c ≠ .bridgeRecord → c ≠ .schedOn → c ≠ .schedOff → t.settings = s.settings) ∧
      (c ≠ .blackoutInsert → c ≠ .blackoutRemove → c ≠ .minuteEvent → t.blackouts = s.blackouts) ∧
      (c ≠ .minuteEvent → c ≠ .setClock → SameClock s t) ∧
      ((∀ b, c ≠ .flashOpDone b) → c ≠ .saveImage → t.flash = s.flash) ∧
      (c ≠ .mapRecord → SameMap s t))

/-- The state after reset: the values the rules give for a power-up that finds the image bad (R1, R21, R27, R42, R46,
R90, R111, R120, R132, R136, R154, R155, R156, R163, R168, R173, R182, R186). The inputs at reset (mains present, a strap
that opens the port) are the model's choice, log 8. -/
def Obligations.ResetValues : Prop :=
  (∀ i : EntryId, State.reset.entry i = Entry.free) ∧
  (∀ g : Fin 32, State.reset.group g =
    { quotaPercent := 20, weight := 1, occupancy := 0, functionInterval := 30, functionTolerance := 7,
      durationInterval := 365, durationTolerance := 30, rechargeHours := 24 }) ∧
  (State.reset.minute = 0 ∧ State.reset.clockValid = false ∧ State.reset.seconds = 0) ∧
  (∀ d : Fin 7, State.reset.rows[d].written = false ∧ ∀ k : Fin 48, State.reset.rows[d].masks[k] = 0) ∧
  State.reset.blackouts = [] ∧
  (State.reset.passTimer = 0 ∧ State.reset.passState = .idle ∧ State.reset.plan = []) ∧
  (∀ c : Fin 16, State.reset.criteria[c] = 0) ∧
  State.reset.policy = #v[false, false, true, true, false, true, false, false] ∧
  (∀ n : LineId, State.reset.mainsLine n = { sense := .present, outageMinutes := 0, holdOff := 0 }) ∧
  (∀ n : LineId, (State.reset.line n).engine = .idle ∧ (State.reset.line n).pass = [] ∧
    (State.reset.line n).control = [] ∧ (State.reset.line n).polls = [] ∧ (State.reset.line n).backlog = [] ∧
    (State.reset.line n).pointer = .poll ∧ (State.reset.line n).exchangeNumber = 0 ∧
    (State.reset.line n).supplyOn = true ∧
    (State.reset.line n).settings = { replyWindow := 30, attempts := 2, pollPeriod := 60 }) ∧
  (State.reset.rx = [] ∧ State.reset.tx = [] ∧ State.reset.rotation = .lampPath ∧
    State.reset.lampWaiting = false ∧ State.reset.portOpen = true) ∧
  (State.reset.capture.state = .idle none ∧ State.reset.capture.mode = .off ∧
    State.reset.capture.action = .record ∧ State.reset.capture.target = 1) ∧
  (State.reset.mgmt = .idle ∧ State.reset.save = none) ∧
  (∀ f : EventFlag, State.reset.flag f = decide (f = .clockNeeded ∨ f = .imageBad)) ∧
  State.reset.settings =
    { schedulerEnable := false, passInterval := 5, grace := 15, maxAttempts := 4, backoffBase := 15, debounce := 5,
      holdOff := 60, lightingType := 0x8E2D, filterMode := 2, reportAddress := 0, notifyMask := 0 } ∧
  (State.reset.noticePending = false ∧ State.reset.noticeOwed = false ∧ State.reset.noticeNumber = 0)

/-- A power-up that finds no good image (the flash does not answer, or is blank; another marker or format version; a
stated length that does not fit the image area; a CRC-32 that disagrees; or records that do not load) gives the state
after reset, which has IMAGE_BAD set and every table at its default, with the strap number read, the port open but for a
strap reading of 0 or 255, and a loss debounce of the default 5 seconds on each line whose mains input reads absent
(R132, R151, R180, R182). One whose image loads takes tables and map from it, the clock invalid, every calendar row
written, CLOCK_NEEDED set and IMAGE_BAD not. The image a save writes of a state loads to that state's tables, every
entry as saved but READY or FAULTED, all else as after reset (R21, R178, R180). With a port that opens, CLOCK_NEEDED is
taken as a rise: a notice is pending when its mask bit and a report address are loaded, and none is owed (R182, R184).
After either every in-use entry is READY or FAULTED (R21). The size of the image area is log 34, how bytes of the flash
never written read log 14. -/
def Obligations.PowerUp : Prop :=
  ∀ (s : State) (straps : Byte) (answers : Bool) (present : Vector Bool 6),
    (answers = false ∨ s.flash = [] ∨ ImageFrameBad s.flash ∨ (s.atPowerUp straps).loadImage = none →
      exec (.powerUp straps answers present) s = .next
        { State.reset with
          strap := straps, portOpen := decide (straps ≠ 0 ∧ straps ≠ 255), linkUp := s.linkUp, flash := s.flash,
          pending := s.pending
          mains := Vector.ofFn fun n =>
            { sense := if present[n] then .present else .lossPending 5, outageMinutes := 0, holdOff := 0 } }) ∧
    (∃ t, exec (.powerUp straps answers present) s = .next t ∧ ∀ i : EntryId, (t.entry i).inUse = true →
      (t.entry i).state = .ready ∨ (t.entry i).state = .faulted) ∧
    (∀ saved, Savable saved → s.flash = savedImage saved → exec (.powerUp straps true present) s = .next
      { State.reset with
        strap := straps, portOpen := decide (straps ≠ 0 ∧ straps ≠ 255), linkUp := s.linkUp, flash := s.flash
        pending := s.pending, flags := 0x2000
        noticePending := decide (straps ≠ 0 ∧ straps ≠ 255 ∧ saved.settings.notifyMask.getLsbD 13 = true ∧
          saved.settings.reportAddress ≠ 0)
        settings := saved.settings, policy := saved.policy, criteria := saved.criteria, groups := saved.groups
        blackouts := saved.blackouts, rows := Vector.ofFn fun d => { saved.rows[d] with written := true }
        lines := Vector.ofFn fun n => { LineEngine.initial with settings := (saved.line n).settings }
        entries := Vector.ofFn fun i => loadedEntry (saved.entry i)
        mains := Vector.ofFn fun n =>
          { sense := if present[n] then .present else .lossPending saved.settings.debounce, outageMinutes := 0,
            holdOff := 0 } }) ∧
    ∀ loaded, answers = true → (s.atPowerUp straps).loadImage = some loaded →
      ∃ t, exec (.powerUp straps answers present) s = .next t ∧ t.entries = loaded.entries ∧ SameTables loaded t ∧
        t.minute = 0 ∧ t.clockValid = false ∧ (∀ d : Fin 7, t.rows[d].written = true) ∧ t.flags = 0x2000 ∧
        t.strap = straps ∧ t.portOpen = decide (straps ≠ 0 ∧ straps ≠ 255) ∧ t.flash = s.flash ∧ t.mgmt = .idle ∧
        t.rx = [] ∧ t.tx = [] ∧ t.save = none ∧ t.passState = .idle ∧ t.plan = [] ∧ t.noticeOwed = false ∧
        t.noticePending = decide (straps ≠ 0 ∧ straps ≠ 255 ∧ loaded.settings.notifyMask.getLsbD 13 = true ∧
          loaded.settings.reportAddress ≠ 0) ∧
        ∀ n : LineId, t.mainsLine n =
          { sense := if present[n] then .present else .lossPending loaded.settings.debounce, outageMinutes := 0,
            holdOff := 0 }

/-! ### The clock and the calendar -/

/-- A minute event starts the seconds phase again at 0, raises a valid clock below its maximum and leaves any other
(R38, R39), removes the blackouts that end at or before the count as raised (R50), and advances Mains Sense (R126, R129)
and the pass timer (R72, R73). That the entries, Mains Sense and the blackouts follow one another in one step is log 5.
That the row acts whatever the seconds phase reads is log 3. -/
def Obligations.MinuteEventClockAndCounters : Prop :=
  ∀ s : State, ∃ t, exec .minuteEvent s = .next t ∧
    t.seconds = 0 ∧ t.clockValid = s.clockValid ∧
    (s.clockValid = true → s.minute < maxMinute → t.minute = s.minute + 1) ∧
    (s.clockValid = false ∨ maxMinute ≤ s.minute → t.minute = s.minute) ∧
    t.blackouts = s.blackouts.filter (fun b => decide (t.minute < b.stop)) ∧
    (∀ n : LineId, (t.mainsLine n).sense = (s.mainsLine n).sense ∧
      (t.mainsLine n).outageMinutes = (if s.inOutage n then min 65535 ((s.mainsLine n).outageMinutes + 1)
        else (s.mainsLine n).outageMinutes) ∧
      (t.mainsLine n).holdOff = (s.mainsLine n).holdOff - 1) ∧
    (s.passTimer + 1 < s.settings.passInterval →
      t.passTimer = s.passTimer + 1 ∧ t.passState = s.passState ∧ t.plan = s.plan) ∧
    (s.settings.passInterval ≤ s.passTimer + 1 → t.passTimer = 0 ∧
      (s.armed = true → s.passState = .idle → t.passState = .walking 0 ∧ t.plan = []) ∧
      (s.armed = false ∨ s.passState ≠ .idle → t.passState = s.passState ∧ t.plan = s.plan))

/-- A minute event lowers recharge left (R118), the retry left of an entry whose line is not in outage (R95) and the
remaining minutes of an entry in TESTING; when these reach 0 the entry goes to ENDING, its last verdict kept and its
stop waiting or in flight unless the control queue is full (R101), or on a DOWN line is judged OVERRUN at once (R100).
READY, ENDING and FAULTED entries stay as they are (R100, R116); a PENDING one too (R92), but that a line granted in the
same step may send its start. That the ends fall inside the minute event is log 2, that stops are placed and lines
granted in the same step log 5. -/
def Obligations.MinuteEventCountsEntries : Prop :=
  ∀ (s : State) (i : EntryId), ∃ t, exec .minuteEvent s = .next t ∧
    (∀ left, (s.entry i).state = .recharging left →
      (t.entry i).state = if left ≤ 1 then .ready else .recharging (left - 1)) ∧
    (∀ left, (s.entry i).state = .backoff left →
      (t.entry i).state =
        if s.inOutage (s.entry i).line then .backoff left
        else if left ≤ 1 then .ready else .backoff (left - 1)) ∧
    (∀ u, (s.entry i).state = .testing u → 2 ≤ u.remaining →
      (t.entry i).state = .testing { u with remaining := u.remaining - 1 }) ∧
    (∀ u, (s.entry i).state = .testing u → u.remaining ≤ 1 →
      let n := (s.entry i).line
      ((s.line n).engine ≠ .down → (t.entry i).state = .ending { u with remaining := 0 } ∧
        (t.entry i).lastVerdict = (s.entry i).lastVerdict ∧
        ((s.entry i).inUse = true → (t.line n).stopStands (s.entry i).node = true ∨ 4 ≤ (t.line n).control.length)) ∧
      ((s.line n).engine = .down → (t.entry i).lastVerdict = some (.overrun, u.kind) ∧
        t.flag .verdictFail = true ∧ (t.entry i).state = afterVerdict s i u.kind .overrun 0)) ∧
    (∀ u, (s.entry i).state = .pending u → ∃ sent, (t.entry i).state = .pending { u with startSent := sent } ∧
      (u.startSent = true → sent = true)) ∧
    (∀ u, (s.entry i).state = .ending u → (t.entry i).state = .ending u) ∧
    ((s.entry i).state = .ready → (t.entry i).state = .ready) ∧
    ((s.entry i).state = .faulted → (t.entry i).state = .faulted)

/-- Day number, weekday, minute of day, slot and absolute half-hour of a campus minute, with their ranges; a slot s
covers the minutes 30s to 30s + 29 of its day; the half-hour gives the same weekday and slot; the three readings R43
gives (R43). -/
def Obligations.WeekdayAndSlot : Prop :=
  ((dayNumber 3520000, weekday 3520000, minuteOfDay 3520000, slotOf 3520000) = (2444, 1, 640, 21) ∧
    (dayNumber 3527920, weekday 3527920, minuteOfDay 3527920, slotOf 3527920) = (2449, 6, 1360, 45) ∧
    (dayNumber maxMinute, weekday maxMinute, minuteOfDay maxMinute, slotOf maxMinute) = (2982616, 0, 255, 8)) ∧
  ∀ m : Nat, m ≤ 4294967295 →
    dayNumber m = m / 1440 ∧ dayNumber m ≤ 2982616 ∧
    weekday m = dayNumber m % 7 ∧ weekday m ≤ 6 ∧
    minuteOfDay m = m - 1440 * dayNumber m ∧ minuteOfDay m ≤ 1439 ∧
    slotOf m = minuteOfDay m / 30 ∧ slotOf m ≤ 47 ∧
    halfHour m = m / 30 ∧ halfHour m ≤ 143165576 ∧
    (∀ k, slotOf m = k ↔ 30 * k ≤ minuteOfDay m ∧ minuteOfDay m ≤ 30 * k + 29) ∧
    halfHour m / 48 % 7 = weekday m ∧ halfHour m % 48 = slotOf m

/-- The span test, minute by minute: a span of at least one minute is permitted when it ends within the clock's range,
the mask of the weekday and slot of every minute of it holds the class, and no blackout of the class covers any minute
of it (R52, R53, R54). -/
def Obligations.SpanTestByMinutes : Prop :=
  ∀ (s : State) (t l : Nat) (c : Fin 8), 1 ≤ l → (∀ b ∈ s.blackouts, b.start < b.stop) →
    (s.spanPermitted t l c = true ↔
      t + l ≤ 4294967296 ∧
      (∀ m, t ≤ m → m < t + l → ∀ (hd : weekday m < 7) (hk : slotOf m < 48),
        (s.rows[weekday m].masks[slotOf m]).getLsbD c = true) ∧
      ∀ b ∈ s.blackouts, b.classes.getLsbD c = true → ∀ m, t ≤ m → m < t + l → ¬(b.start ≤ m ∧ m < b.stop))

/-! ### Due windows and the plan list -/

/-- Progress is 0 at opens, at least 1,000 exactly from the deadline on, 4,000 from four window widths on and never
above (R59); a score is progress times weight, 500 more for a duration, and at most 60,500 (R60). -/
def Obligations.ProgressAndScore : Prop :=
  (∀ now opens w : Nat, 0 < w → opens ≤ now →
    progressOf opens opens w = 0 ∧ progressOf now opens w ≤ 4000 ∧
    (1000 ≤ progressOf now opens w ↔ opens + w ≤ now) ∧
    (opens + 4 * w ≤ now → progressOf now opens w = 4000)) ∧
  ∀ p w : Nat, p ≤ 4000 → 1 ≤ w → w ≤ 15 →
    scoreOf .function p w = p * w ∧ scoreOf .duration p w = p * w + 500 ∧
    scoreOf .function p w ≤ 60500 ∧ scoreOf .duration p w ≤ 60500

/-- A candidate handed to the plan list (R78), over lists in the order of R77 whose indices all lie below the
candidate's: placed in order when the list holds fewer than 16 records, or when it holds 16 and the last has a lower
score, which is then dropped; otherwise not inserted. -/
def Obligations.PlanInsertion : Prop :=
  ∀ (c : PlanRecord) (l : List PlanRecord),
    l.Pairwise (fun a b => a.before b = true) → (∀ r ∈ l, r.entry.val < c.entry.val) →
    (insertPlan c l).Pairwise (fun a b => a.before b = true) ∧
    (l.length < 16 → (insertPlan c l).Perm (c :: l)) ∧
    ∀ last, l.length = 16 → l.getLast? = some last →
      (last.score < c.score → (insertPlan c l).Perm (c :: l.dropLast)) ∧
      (c.score ≤ last.score → insertPlan c l = l)

/-! ### The scheduling pass -/

/-- An expiry of the pass timer begins a pass when the Scheduler is armed and IDLE, and otherwise has no effect but
the return of the timer to 0 (R72, R73); armed is the three conditions of R70. That this row acts on a timer one short
of the interval, and returns it to 0 outside a minute event, is the model's choice, log 2. -/
def Obligations.PassTimerExpiry : Prop :=
  ∀ s : State, s.settings.passInterval ≤ s.passTimer + 1 →
    ((s.settings.schedulerEnable = true ∧ s.clockValid = true ∧ ∀ d : Fin 7, s.rows[d].written = true) →
      s.passState = .idle →
      exec .passTimerExpiry s = .next { s with passTimer := 0, passState := .walking 0, plan := [] }) ∧
    (¬(s.settings.schedulerEnable = true ∧ s.clockValid = true ∧ ∀ d : Fin 7, s.rows[d].written = true) ∨
        s.passState ≠ .idle →
      exec .passTimerExpiry s = .next { s with passTimer := 0 })

/-- The walk passes over an entry that fails a candidate condition: only the pass state moves, to the next index, and
after entry 239 to ADMITTING, or to IDLE when the plan list is empty (R74, R75, R80). -/
def Obligations.WalkPassesOver : Prop :=
  ∀ (s : State) (i : EntryId), s.armed = true → s.passState = .walking i →
    ((s.entry i).inUse = false ∨ (s.entry i).state ≠ .ready ∨ (s.entry i).barred = true ∨
      (s.entry i).held = true ∨ s.inOutage (s.entry i).line = true ∨
      0 < (s.mainsLine (s.entry i).line).holdOff ∨ (s.line (s.entry i).line).engine = .down) →
    (∀ h : i.val + 1 < 240, exec .walkEntry s = .next { s with passState := .walking ⟨i.val + 1, h⟩ }) ∧
    (i.val = 239 → exec .walkEntry s = .next { s with passState := if s.plan = [] then .idle else .admitting })

/-- The walk evaluates a candidate entry: added at is set when all three history times are absent (R57); each kind's
window opens I − T days after its base, which is the kind's last end, else added at, else the other kind's last end,
else now, and is the larger of one day and 2T days wide (R56, R57); the overdue-noted flag of each kind whose deadline
has come is set and OVERDUE raised for a new one (R59, R66); the candidate of R61, scored by R59 and R60, is handed to
the plan list. Every other entry stays as it is, and the walk moves to the next index, after entry 239 to ADMITTING,
or to IDLE when the plan list is empty (R74, R80). -/
def Obligations.WalkEvaluatesCandidate : Prop :=
  ∀ (s : State) (i : EntryId), s.armed = true → s.passState = .walking i →
    (s.entry i).inUse = true → (s.entry i).state = .ready → (s.entry i).barred = false →
    (s.entry i).held = false → s.inOutage (s.entry i).line = false →
    (s.mainsLine (s.entry i).line).holdOff = 0 → (s.line (s.entry i).line).engine ≠ .down →
    let e := s.entry i
    let g := s.group e.group
    let first (a b c : Option Nat) : Nat := ((a.or b).or c).getD s.minute
    let opensF := first e.lastFunctionEnd e.addedAt e.lastDurationEnd + g.functionInterval * 1440 -
      g.functionTolerance * 1440
    let opensD := first e.lastDurationEnd e.addedAt e.lastFunctionEnd + g.durationInterval * 1440 -
      g.durationTolerance * 1440
    let widthF := max 1440 (2 * g.functionTolerance * 1440)
    let widthD := max 1440 (2 * g.durationTolerance * 1440)
    ∃ t, exec .walkEntry s = .next t ∧
      (t.entry i).addedAt =
        (if e.addedAt = none ∧ e.lastFunctionEnd = none ∧ e.lastDurationEnd = none then some s.minute
          else e.addedAt) ∧
      (t.entry i).overdueFunction = (e.overdueFunction || decide (opensF + widthF ≤ s.minute)) ∧
      (t.entry i).overdueDuration = (e.overdueDuration || decide (opensD + widthD ≤ s.minute)) ∧
      ((e.overdueFunction = false ∧ opensF + widthF ≤ s.minute) ∨
        (e.overdueDuration = false ∧ opensD + widthD ≤ s.minute) → t.flag .overdue = true) ∧
      (∀ j, j ≠ i → t.entry j = s.entry j) ∧ (t.entry i).state = .ready ∧ SameMap s t ∧
      (opensD ≤ s.minute → t.plan = insertPlan
        { entry := i, kind := .duration,
          score := min 4000 ((s.minute - opensD) * 1000 / widthD) * g.weight + 500 } s.plan) ∧
      (s.minute < opensD → opensF ≤ s.minute → t.plan = insertPlan
        { entry := i, kind := .function,
          score := min 4000 ((s.minute - opensF) * 1000 / widthF) * g.weight } s.plan) ∧
      (s.minute < opensD → s.minute < opensF → t.plan = s.plan) ∧
      (∀ h : i.val + 1 < 240, t.passState = .walking ⟨i.val + 1, h⟩) ∧
      (i.val = 239 → t.passState = if t.plan = [] then .idle else .admitting)

/-- Admission turns a record away with the block reason of the first check that fails, or without one (R81 to R85);
the record leaves the list and the entry stays READY. -/
def Obligations.AdmissionTurnsAway : Prop :=
  ∀ (s : State) (r : PlanRecord) (rest : List PlanRecord),
    s.armed = true → s.passState = .admitting → s.plan = r :: rest →
    let e := s.entry r.entry
    let span := s.spanPermitted s.minute (if r.kind = .function then 1 else e.rated) (s.group e.group).occupancy
    let ok1 := e.inUse = true ∧ e.state = .ready ∧ e.barred = false
    let ok2 := ok1 ∧ e.held = false
    let ok3 := ok2 ∧ s.inOutage e.line = false ∧ (s.mainsLine e.line).holdOff = 0
    let ok4 := ok3 ∧ (s.line e.line).engine ≠ .down
    let ok5 := ok4 ∧ span = true
    let ok6 := ok5 ∧ s.outOfService e.group < s.quota e.group
    let ok7 := ok6 ∧ s.lineActive e.line < 12
    ∃ t, exec .admission s = .next t ∧ t.plan = rest ∧
      t.passState = (if rest = [] then .idle else .admitting) ∧
      (¬ok1 → (t.entry r.entry).lastBlock = e.lastBlock) ∧
      (ok1 → e.held = true → (t.entry r.entry).lastBlock = some .held) ∧
      (ok2 → (s.inOutage e.line = true ∨ 0 < (s.mainsLine e.line).holdOff) →
        (t.entry r.entry).lastBlock = some .outage) ∧
      (ok3 → (s.line e.line).engine = .down → (t.entry r.entry).lastBlock = some .lineDown) ∧
      (ok4 → span = false → (t.entry r.entry).lastBlock = some .calendar) ∧
      (ok5 → s.quota e.group ≤ s.outOfService e.group → (t.entry r.entry).lastBlock = some .quota) ∧
      (ok6 → 12 ≤ s.lineActive e.line → (t.entry r.entry).lastBlock = some .lineLimit) ∧
      (ok7 → 4 ≤ (s.line e.line).control.length → (t.entry r.entry).lastBlock = some .controlFull) ∧
      (ok1 → ¬(ok7 ∧ (s.line e.line).control.length < 4) → (t.entry r.entry).state = .ready)

/-- A record that passes the re-check and all four checks is handed off (R86): the entry PENDING with a fresh current
test of origin SCHEDULER and block reason NONE, its group's O and its line's active count one higher; while the line is
not IDLE the start stands on the control queue behind what stood there, unsent; on an IDLE line whose clients have no
work and which owes no stop its exchange begins at once, start sent yes (R137, R144). A watching capture of its campus
number in mode ANY or TEST opens its record for the start (R165); the argument bytes it shows are log 28, its mark log
10. -/
def Obligations.AdmissionHandsOff : Prop :=
  ∀ (s : State) (r : PlanRecord) (rest : List PlanRecord),
    s.armed = true → s.passState = .admitting → s.plan = r :: rest →
    let e := s.entry r.entry
    e.inUse = true → e.state = .ready → e.barred = false → e.held = false →
    s.inOutage e.line = false → (s.mainsLine e.line).holdOff = 0 → (s.line e.line).engine ≠ .down →
    s.spanPermitted s.minute (if r.kind = .function then 1 else e.rated) (s.group e.group).occupancy = true →
    s.outOfService e.group < s.quota e.group → s.lineActive e.line < 12 →
    (s.line e.line).control.length < 4 →
    ∃ (t : State) (sent : Bool), exec .admission s = .next t ∧ t.plan = rest ∧
      t.passState = (if rest = [] then .idle else .admitting) ∧
      (t.entry r.entry).state = .pending
        { kind := r.kind, origin := .scheduler, startedAt := none, remaining := 0, missed := 0, pollDue := 0,
          stopRequested := false, startSent := sent, remainingAtStart := 0 } ∧
      (t.entry r.entry).lastBlock = some .cleared ∧ (t.entry r.entry).attempts = e.attempts ∧
      (t.entry r.entry).addedAt = e.addedAt ∧ (t.entry r.entry).lastFunctionEnd = e.lastFunctionEnd ∧
      (t.entry r.entry).lastDurationEnd = e.lastDurationEnd ∧
      (s.capture.state = .watching → s.capture.target = e.cln → s.capture.mode = .any ∨ s.capture.mode = .test →
        t.capture.state = .opened
          { origin := .bridge, name := if r.kind = .function then .startFunction else .startDuration
            arg := (if r.kind = .function then ControlKind.startFunction else .startDuration e.rated).arg
            line := e.line, node := e.node, clock := some s.minute, answer := none } s.capture.nextMark) ∧
      ((s.line e.line).engine = .idle → (s.line e.line).pass = [] → (s.line e.line).control = [] →
        (s.line e.line).polls = [] → s.owedStop e.line = none → sent = true ∧ ∃ mark,
          let kind : ControlKind := if r.kind = .function then .startFunction else .startDuration e.rated
          t.line e.line = { s.line e.line with
            engine := .sending
              { work := .control { kind := kind, entry := r.entry, node := e.node, mark := mark }, node := e.node,
                bytes := lineRequestBytes e.node ((s.line e.line).exchangeNumber + 1) kind.name kind.arg,
                allowed := (s.line e.line).settings.attempts, made := 1, badSeen := false }
            exchangeNumber := (s.line e.line).exchangeNumber + 1, pointer := .control }) ∧
      t.outOfService e.group = s.outOfService e.group + 1 ∧ t.lineActive e.line = s.lineActive e.line + 1 ∧
      ((s.line e.line).engine ≠ .idle → sent = false ∧ ∃ (mark : Option Nat) (stops : List ControlRequest),
        (t.line e.line).control = (s.line e.line).control ++
          [{ kind := if r.kind = .function then .startFunction else .startDuration e.rated, entry := r.entry,
             node := e.node, mark := mark }] ++ stops)

/-- The Scheduler moves an entry to PENDING only when its group has O below Q, its line fewer than 12 active entries,
and the span of the test it starts (one minute for a function test, the rated minutes for a duration test) is permitted
for the group's class, at that admission (R11, R31, R52, R82, R83). Before it, what the counts are: PENDING, TESTING and
ENDING are under test, and with RECHARGING out of service; O of a group is the number of its in-use entries out of
service (R29), N that of its in-use entries not barred (R28), the active count of a line that of its in-use entries
under test (R11); Q is 0 at quota percent 0, else N × percent / 100 truncated, but 1 where that is 0 and the group has
members (R30). -/
def Obligations.SchedulerRespectsQuota : Prop :=
  (∀ st : EntryState,
    (st.underTest = true ↔ ∃ u, st = .pending u ∨ st = .testing u ∨ st = .ending u) ∧
    (st.outOfService = true ↔ (∃ u, st = .pending u ∨ st = .testing u ∨ st = .ending u) ∨
      ∃ left, st = .recharging left)) ∧
  (∀ (s : State) (g : Fin 32) (n : LineId),
    let number (p : Entry → Bool) : Nat := (List.finRange 240).countP fun i => p (s.entry i)
    let members := number fun e => e.inUse && !e.barred && e.group == g
    let percent := (s.group g).quotaPercent
    s.outOfService g = number (fun e => e.inUse && e.state.outOfService && e.group == g) ∧
    s.lineActive n = number (fun e => e.inUse && e.state.underTest && e.line == n) ∧
    s.members g = members ∧
    (percent = 0 → s.quota g = 0) ∧
    (1 ≤ percent → 1 ≤ members * percent / 100 ∨ members = 0 → s.quota g = members * percent / 100) ∧
    (1 ≤ percent → members * percent / 100 = 0 → 1 ≤ members → s.quota g = 1)) ∧
  ∀ (s t : State) (i : EntryId), exec .admission s = .next t →
    (s.entry i).state.underTest = false → (t.entry i).state.underTest = true →
    s.outOfService (s.entry i).group < s.quota (s.entry i).group ∧ s.lineActive (s.entry i).line < 12 ∧
    ∃ u, (t.entry i).state = .pending u ∧
      s.spanPermitted s.minute (if u.kind = .function then 1 else (s.entry i).rated)
        (s.group (s.entry i).group).occupancy = true

/-! ### The life of a test -/

/-- Poll due of a TESTING entry at 0 is reloaded with its line's poll period (R96). While the line is not IDLE a PROBE
for the entry then waits with the poll client, one and no more (R143); on an IDLE line whose clients have no work and
which owes no stop it is granted at once (R144). A watching capture of its campus number in mode ANY opens its record
for the PROBE (R165); the argument bytes it shows are log 28, its mark log 10. That the row stands for the seconds that
have passed, and acts whatever poll due reads, is the model's choice, log 3. -/
def Obligations.PollDuePlacesProbe : Prop :=
  ∀ (s : State) (i : EntryId) (u : CurrentTest), (s.entry i).state = .testing u →
    let n := (s.entry i).line
    let l := s.line n
    ∃ t, exec (.pollDue i) s = .next t ∧
      (t.entry i).state = .testing { u with pollDue := l.settings.pollPeriod } ∧
      (l.engine ≠ .idle →
        (l.polls.countP (fun p => p.entry == i) = 0 → (t.line n).polls.countP (fun p => p.entry == i) = 1) ∧
        (l.polls.countP (fun p => p.entry == i) ≠ 0 → (t.line n).polls = l.polls)) ∧
      (s.capture.state = .watching → s.capture.mode = .any → (s.entry i).inUse = true →
        (s.entry i).cln = s.capture.target → l.polls.countP (fun p => p.entry == i) = 0 →
        t.capture.state = .opened
          { origin := .bridge, name := .probe, arg := probeArg, line := n, node := (s.entry i).node
            clock := if s.clockValid then some s.minute else none, answer := none } s.capture.nextMark) ∧
      (l.engine = .idle → l.pass = [] → l.control = [] → l.polls = [] → s.owedStop n = none → ∃ mark, t.line n =
        { l with
          engine := .sending
            { work := .poll { entry := i, mark := mark }, node := (s.entry i).node,
              bytes := lineRequestBytes (s.entry i).node (l.exchangeNumber + 1) .probe probeArg,
              allowed := l.settings.attempts, made := 1, badSeen := false }
          exchangeNumber := l.exchangeNumber + 1, pointer := .poll })

/-- The remaining minutes of a TESTING entry run out (R100): it goes to ENDING with remaining minutes 0 and has its
stop waiting or in flight unless the control queue is full (R101), or on a DOWN line is judged OVERRUN at once, which
by the policy halts it or gives it the recharge of R113. That the command stands for the last minute is log 2. -/
def Obligations.RemainingMinutesOut : Prop :=
  ∀ (s : State) (i : EntryId) (u : CurrentTest), (s.entry i).state = .testing u → u.remaining ≤ 1 →
    ∃ t, exec (.remainingMinutesOut i) s = .next t ∧
      ((s.line (s.entry i).line).engine ≠ .down → (t.entry i).state = .ending { u with remaining := 0 } ∧
        (t.entry i).lastVerdict = (s.entry i).lastVerdict ∧
        ((s.entry i).inUse = true → (t.line (s.entry i).line).stopStands (s.entry i).node = true ∨
          4 ≤ (t.line (s.entry i).line).control.length)) ∧
      ((s.line (s.entry i).line).engine = .down → (t.entry i).lastVerdict = some (.overrun, u.kind) ∧
        t.flag .verdictFail = true ∧
        (s.policy[5] = true → (t.entry i).state = .faulted ∧ t.flag .halted = true) ∧
        (s.policy[5] = false → u.kind = .function → (t.entry i).state = .ready) ∧
        (s.policy[5] = false → u.kind = .duration → 1 ≤ (s.group (s.entry i).group).rechargeHours →
          (t.entry i).state = .recharging ((s.group (s.entry i).group).rechargeHours * 60)))

/-- The last minute of a recharge, of a retry delay on a line not in outage, and of a hold-off ends it, and changes
nothing else (R95, R118, R129; that the command stands for the last minute is log 2). -/
def Obligations.CountersEnd : Prop :=
  ∀ (s : State) (i : EntryId) (n : LineId),
    ((s.entry i).state = .recharging 1 →
      exec (.rechargeEnd i) s = .next { s with entries := s.entries.set i { s.entry i with state := .ready } }) ∧
    ((s.entry i).state = .backoff 1 → s.inOutage (s.entry i).line = false →
      exec (.backoffEnd i) s = .next { s with entries := s.entries.set i { s.entry i with state := .ready } }) ∧
    ((s.mainsLine n).holdOff = 1 →
      exec (.holdOffEnd n) s = .next { s with mains := s.mains.set n { s.mainsLine n with holdOff := 0 } })

/-- The recharge of a verdict that does not halt (R113): for a duration test R, for an aborted one R × min(E, D) / D
rounded up, for a function test 0; it lies between 0 and R. -/
def Obligations.VerdictRecharge : Prop :=
  ∀ (r d e : Nat) (v : Verdict), 0 < d →
    verdictRecharge r d e .function v = 0 ∧
    (v ≠ .abortedHeadend → v ≠ .abortedOutage → verdictRecharge r d e .duration v = r) ∧
    (v = .abortedHeadend ∨ v = .abortedOutage →
      (verdictRecharge r d e .duration v * d < r * min e d + d ∧ r * min e d ≤ verdictRecharge r d e .duration v * d) ∧
      (e = 0 → verdictRecharge r d e .duration v = 0)) ∧
    ∀ k, verdictRecharge r d e k v ≤ r

/-- Recording a verdict for an entry under test (R62, R63, R112, R113, R114, R115): last verdict with the kind; a done
verdict writes the end times while the clock is valid and clears the overdue-noted flags in either case; the flag of
R114 is raised, HALTED with a halting verdict, and no other but CAPTURE_HIT; the entry's waiting PROBE is withdrawn and
its unsent bridge stops removed, a recorded one completing the capture WITHDRAWN (R167); a halting verdict gives
FAULTED, any other the recharge or READY; attempts and last block reason stay; no other entry changes but for a hold the
Capture Unit sets, and no other line. The marks of recorded requests are the model's own (log 10). -/
def Obligations.RecordVerdict : Prop :=
  ∀ (s : State) (i : EntryId) (u : CurrentTest) (v : Verdict) (e : Nat), (s.entry i).state.test = some u →
    let t := s.recordVerdict i v e
    let doneF := (u.kind = .function ∧ (v = .pass ∨ v = .short ∨ v = .lamp)) ∨
      (u.kind = .duration ∧ (v = .pass ∨ v = .marginal))
    let doneD := u.kind = .duration ∧ (v = .pass ∨ v = .marginal ∨ v = .short ∨ v = .lamp)
    let recharge := verdictRecharge ((s.group (s.entry i).group).rechargeHours * 60) (s.entry i).rated e u.kind v
    let n := (s.entry i).line
    (t.entry i).lastVerdict = some (v, u.kind) ∧
    (t.line n).polls = (s.line n).polls.filter (fun p => p.entry != i) ∧
    (t.line n).control = (s.line n).control.filter (fun c => !(c.kind == .stopTest && c.entry == i)) ∧
    (t.line n).pass = (s.line n).pass ∧ (t.line n).engine = (s.line n).engine ∧
    (∀ m, m ≠ n → t.line m = s.line m) ∧
    (∀ f : EventFlag, f ≠ .captureHit → t.flag f = (s.flag f || decide (
      (f = .verdictFail ∧ (v = .short ∨ v = .lamp ∨ v = .overrun)) ∨ (f = .verdictMarginal ∧ v = .marginal) ∨
      (f = .noContact ∧ v = .noContact) ∨ (f = .halted ∧ s.halts v = true)))) ∧
    (∀ record k, s.capture.state = .opened record k →
      (∃ p ∈ (s.line n).polls, p.entry = i ∧ p.mark = some k) ∨
        (∃ c ∈ (s.line n).control, c.kind = .stopTest ∧ c.entry = i ∧ c.mark = some k) →
      CaptureCompleted s t record i .withdrawn) ∧
    (doneF → (t.entry i).overdueFunction = false ∧
      (t.entry i).lastFunctionEnd = if s.clockValid then some s.minute else (s.entry i).lastFunctionEnd) ∧
    (¬doneF → (t.entry i).overdueFunction = (s.entry i).overdueFunction ∧
      (t.entry i).lastFunctionEnd = (s.entry i).lastFunctionEnd) ∧
    (doneD → (t.entry i).overdueDuration = false ∧
      (t.entry i).lastDurationEnd = if s.clockValid then some s.minute else (s.entry i).lastDurationEnd) ∧
    (¬doneD → (t.entry i).overdueDuration = (s.entry i).overdueDuration ∧
      (t.entry i).lastDurationEnd = (s.entry i).lastDurationEnd) ∧
    (s.halts v = true → (t.entry i).state = .faulted ∧ t.flag .halted = true) ∧
    (s.halts v = false → (t.entry i).state = if recharge = 0 then .ready else .recharging recharge) ∧
    (t.entry i).attempts = (s.entry i).attempts ∧ (t.entry i).lastBlock = (s.entry i).lastBlock ∧
    ∀ j, j ≠ i → ∃ h, t.entry j = { s.entry j with held := h }

/-- A start answer ACCEPTED heard for an entry PENDING with its start sent, whichever client sent the start, moves it to
TESTING and fills its current test; with a stop requested it moves on to ENDING in the same step (R92, R93, R108, R134).
That the start taken is the entry's own is read from start sent, log 13. -/
def Obligations.AcceptedStartTests : Prop :=
  ∀ (s : State) (n : LineId) (x : Exchange) (w : Nat) (i : EntryId) (u : CurrentTest),
    (s.line n).engine = .awaiting x w → x.work.name = .startFunction ∨ x.work.name = .startDuration →
    x.node < 256 → s.findPlace n x.node = some i →
    (s.entry i).state = .pending u → u.startSent = true →
    let left := if u.kind = .duration then min 255 ((s.entry i).rated + s.settings.grace) else 10
    let filled : CurrentTest :=
      { u with
        remaining := left, remainingAtStart := left, missed := 0,
        pollDue := (s.line n).settings.pollPeriod,
        startedAt := if s.clockValid then some s.minute else none }
    ∃ t, exec (heardAnswer n x [1, 1]) s = .next t ∧
      (t.entry i).state = (if u.stopRequested then .ending filled else .testing filled) ∧
      (t.entry i).attempts = 0 ∧ (t.entry i).lastVerdict = (s.entry i).lastVerdict ∧
      (t.entry i).lastBlock = (s.entry i).lastBlock ∧
      ((t.line n).engine = .gap ∨ (t.line n).engine = .holding)

/-- Test reports and stop answers for an entry under test, whichever client asked. A DUR_DONE report for a duration test
is judged by the four checks of R110, a FUNC_DONE report for a function test by its result (R109), in TESTING and in
ENDING alike (R98, R99). Without such a report, mains absent gives ABORTED_OUTAGE with the report's E. With mains
present, in TESTING: the test under way clears the missed polls, the other kind running moves the entry to ENDING with
no stop requested, any other report gives NO_VERDICT; in ENDING it only clears the missed polls. A stop answer in ENDING
gives the verdict of R102's table, STOPPED in TESTING gives ABORTED_HEADEND, NO_TEST in TESTING is not taken. A PENDING
entry takes none of them (O27). Each verdict is recorded with the move R112 and R113 give it. -/
def Obligations.DurationReportIsJudged : Prop :=
  ∀ (s : State) (n : LineId) (x : Exchange) (w : Nat) (i : EntryId) (u : CurrentTest),
    (s.line n).engine = .awaiting x w → x.node < 256 → s.findPlace n x.node = some i →
    let ends (f : List Byte) (v : Verdict) (e : Byte) : Prop := ∃ t, exec (heardAnswer n x f) s = .next t ∧
      (t.entry i).lastVerdict = some (v, u.kind) ∧ (t.entry i).state = afterVerdict s i u.kind v e.toNat
    let goesOn (f : List Byte) (st : EntryState) : Prop := ∃ t, exec (heardAnswer n x f) s = .next t ∧
      (t.entry i).lastVerdict = (s.entry i).lastVerdict ∧ (t.entry i).state = st
    let limit := s.criteria[(s.entry i).battery]
    let running (k : Kind) : Byte := if k = .function then 1 else 2
    let lost (m : Bool) (f : List Byte) (e : Byte) : Prop :=
      (f = reportFields 0 0 0 0 m ∧ e = 0) ∨ ∃ res : Byte, (res = 1 ∨ res = 2 ∨ res = 3) ∧
        ((u.kind = .duration ∧ f = reportFields 3 res e 0 m) ∨
          (u.kind = .function ∧ ∃ v, v ≤ 4095 ∧ f = reportFields 4 res e v m))
    (x.work.name = .probe →
      ((s.entry i).state = .testing u ∨ (s.entry i).state = .ending u →
        (u.kind = .duration → ∀ (res e : Byte) (v : Nat) (m : Bool), (res = 1 ∨ res = 2 ∨ res = 3) → v ≤ 4095 →
          ends (reportFields 4 res e v m)
            (if res = 2 then .lamp
              else if e.toNat < (s.entry i).rated ∨ res = 3 then .short
              else if limit ≠ 0 ∧ v < limit then .marginal
              else .pass) e) ∧
        (u.kind = .function → ∀ (res e : Byte) (m : Bool), (res = 1 ∨ res = 2 ∨ res = 3) →
          ends (reportFields 3 res e 0 m) (if res = 2 then .lamp else if res = 3 then .short else .pass) e) ∧
        (∀ k e, ends (reportFields (running k) 0 e 0 false) .abortedOutage e) ∧
        (∀ f e, lost false f e → ends f .abortedOutage e)) ∧
      ((s.entry i).state = .testing u →
        (∀ e, goesOn (reportFields (running u.kind) 0 e 0 true) (.testing { u with missed := 0 })) ∧
        (∀ k e, k ≠ u.kind →
          goesOn (reportFields (running k) 0 e 0 true) (.ending { u with missed := 0, stopRequested := false })) ∧
        (∀ f e, lost true f e → ends f .noVerdict e)) ∧
      ((s.entry i).state = .ending u →
        (∀ k e, goesOn (reportFields (running k) 0 e 0 true) (.ending { u with missed := 0 })) ∧
        (∀ f e, lost true f e → goesOn f (.ending { u with missed := 0 })))) ∧
    (x.work.name = .stopTest →
      ((s.entry i).state = .ending u →
        (∀ e, ends [2, 1, e]
          (if u.stopRequested then .abortedHeadend else if u.remaining = 0 then .overrun else .noVerdict) e) ∧
        ends [2, 2, 0]
          (if u.stopRequested then .noVerdict else if u.remaining = 0 then .overrun else .noVerdict) 0) ∧
      ((s.entry i).state = .testing u →
        (∀ e, ends [2, 1, e] .abortedHeadend e) ∧ goesOn [2, 2, 0] (.testing u)))

/-! ### The course of an exchange -/

/-- The last byte of a request sent opens the reply window of the line's setting (R137, R145); the end of the gap grants
the first client after the pointer that has work, or leaves the line IDLE (R139, R144), on a line with no stop owed. The
grant of an entry's start makes start sent yes, and no other grant changes an entry (R92, R137). That the rows stand for
times in milliseconds is logs 3 and 26. -/
def Obligations.RequestSentAndGapEnd : Prop :=
  ∀ (s : State) (n : LineId),
    let l := s.line n
    let sent (t : State) (start : Bool) (i : EntryId) : Prop :=
      (∀ u, start = true → (s.entry i).state = .pending u →
        (t.entry i).state = .pending { u with startSent := true }) ∧
      (start = false → t.entries = s.entries) ∧ ∀ j, j ≠ i → t.entry j = s.entry j
    (∀ x, l.engine = .sending x → exec (.requestSent n) s = .next
      { s with lines := s.lines.set n { l with engine := .awaiting x l.settings.replyWindow } }) ∧
    (l.engine = .gap → s.owedStop n = none →
      (l.pass = [] → l.control = [] → l.polls = [] →
        exec (.gapEnd n) s = .next { s with lines := s.lines.set n { l with engine := .idle } }) ∧
      (∀ r rest, l.pass = r :: rest →
        l.pointer = .poll ∨ (l.pointer = .control ∧ l.polls = []) ∨
          (l.pointer = .passThrough ∧ l.control = [] ∧ l.polls = []) →
        ∃ t, exec (.gapEnd n) s = .next t ∧ t.line n =
          { l with
            engine := .sending
              { work := .passThrough r, node := r.node,
                bytes := lineRequestBytes r.node (l.exchangeNumber + 1) r.name r.arg,
                allowed := l.settings.attempts, made := 1, badSeen := false }
            pass := rest, exchangeNumber := l.exchangeNumber + 1, pointer := .passThrough } ∧
          sent t (r.name == .startFunction || r.name == .startDuration) r.entry) ∧
      (∀ r rest, l.control = r :: rest →
        l.pointer = .passThrough ∨ (l.pointer = .poll ∧ l.pass = []) ∨
          (l.pointer = .control ∧ l.polls = [] ∧ l.pass = []) →
        ∃ t, exec (.gapEnd n) s = .next t ∧ t.line n =
          { l with
            engine := .sending
              { work := .control r, node := r.node,
                bytes := lineRequestBytes r.node (l.exchangeNumber + 1) r.kind.name r.kind.arg,
                allowed := l.settings.attempts, made := 1, badSeen := false }
            control := rest, exchangeNumber := l.exchangeNumber + 1, pointer := .control } ∧
          sent t (r.kind != .stopTest) r.entry) ∧
      (∀ r rest, l.polls = r :: rest →
        l.pointer = .control ∨ (l.pointer = .passThrough ∧ l.control = []) ∨
          (l.pointer = .poll ∧ l.pass = [] ∧ l.control = []) →
        ∃ t, exec (.gapEnd n) s = .next t ∧ t.line n =
          { l with
            engine := .sending
              { work := .poll r, node := (s.entry r.entry).node,
                bytes := lineRequestBytes (s.entry r.entry).node (l.exchangeNumber + 1) .probe probeArg,
                allowed := l.settings.attempts, made := 1, badSeen := false }
            polls := rest, exchangeNumber := l.exchangeNumber + 1, pointer := .poll } ∧ t.entries = s.entries))

/-- Answers heard and windows that close (R134, R137, R188): a stray of a known form changes nothing; a bad check byte,
fields the request does not admit, or a closed window begin the next attempt with the same request while attempts are
left, the line's other lists as they stood but for a stop owed. A pass-through exchange ends with the LAMP answer OK and
the node's fields on a taken answer, touched set by a change answered OK (R9, R162), and after its last attempt with
NO_ANSWER, or BAD_ANSWER when an attempt brought a bad answer: at once when a place is free and no answer stands in the
backlog, else at the backlog's tail, the line HOLDING (R140); any other exchange leaves the line in GAP. The end of a
recorded request completes the capture with that answer (R166), also that of a PROBE or STOP_TEST for an entry under
test, no other waiting request having its mark. That what was heard is closed at the length of its form is log 21, that
a running report carries no result log 20. The marks of recorded requests are the model's own (log 10). -/
def Obligations.AttemptsEnd : Prop :=
  ∀ (s : State) (n : LineId) (x : Exchange) (w : Nat), (s.line n).engine = .awaiting x w →
    let markAlone (k : Nat) : Prop := (x.work.name ≠ .probe ∧ x.work.name ≠ .stopTest) ∨
      (∀ i, s.findPlace n x.node = some i → (s.entry i).state.test = none) ∨
      ((∀ p ∈ (s.line n).polls, p.mark ≠ some k) ∧ ∀ c ∈ (s.line n).control, c.mark ≠ some k)
    let placed (t : State) (answer : Frame) : Prop :=
      ((s.line n).backlog = [] → s.tx.length < 16 →
        t.tx = s.tx ++ [answer] ∧ (t.line n).engine = .gap ∧ (t.line n).backlog = []) ∧
      ((s.line n).backlog ≠ [] ∨ 16 ≤ s.tx.length → t.tx = s.tx ∧ (t.line n).engine = .holding ∧
        (t.line n).backlog = (s.line n).backlog ++ [answer])
    let released (c : Instr) : Prop := ∃ t, exec c s = .next t ∧ (t.line n).engine = .gap ∧ t.tx = s.tx ∧
      (t.line n).backlog = (s.line n).backlog
    let badAnswer (c : Instr) : Prop :=
      (x.made < x.allowed → ∃ t, exec c s = .next t ∧
        (t.line n).engine = .sending { x with made := x.made + 1, badSeen := true }) ∧
      (x.allowed ≤ x.made →
        (∀ r, x.work = .passThrough r → ∃ t, exec c s = .next t ∧ placed t (outcomeFrame s .badAnswer r)) ∧
        ((∀ r, x.work ≠ .passThrough r) → released c) ∧
        ∀ record k, s.capture.state = .opened record k → x.work.mark = some k → markAlone k →
          ∃ t, exec c s = .next t ∧ CaptureCompleted s t record x.work.entry (.outcome .badAnswer))
    (∀ (b : List Byte), answerLength (byteAt b 2).toNat = some (b.length + 1) → 4 ≤ b.length →
      ((byteAt b 0).toNat ≠ x.node ∨ byteAt b 1 ≠ x.number) →
      exec (.lineAnswerReceived n (b ++ [crc8 b])) s = .next s) ∧
    (∀ (b : List Byte) (k : Byte), answerLength (byteAt b 2).toNat = some (b.length + 1) → 4 ≤ b.length →
      k ≠ crc8 b → badAnswer (.lineAnswerReceived n (b ++ [k]))) ∧
    (∀ f, x.node < 256 → answerLength (byteAt f 0).toNat = some (f.length + 3) → ¬AdmittedFields x.work.name f →
      badAnswer (heardAnswer n x f)) ∧
    (∀ cut, x.made < x.allowed → ∃ t, exec (.replyWindowClose n cut) s = .next t ∧
      (t.line n).engine = .sending { x with made := x.made + 1, badSeen := x.badSeen || cut } ∧
      (t.line n).pass = (s.line n).pass ∧ (t.line n).polls = (s.line n).polls ∧
      (t.line n).exchangeNumber = (s.line n).exchangeNumber ∧ t.entries = s.entries ∧ t.tx = s.tx) ∧
    (∀ cut r, x.allowed ≤ x.made → x.work = .passThrough r →
      ∃ t, exec (.replyWindowClose n cut) s = .next t ∧
        placed t (outcomeFrame s (if x.badSeen || cut then .badAnswer else .noAnswer) r)) ∧
    (∀ r f, x.work = .passThrough r → x.node = r.node → x.node < 256 → AdmittedFields r.name f →
      ∃ t, exec (heardAnswer n x f) s = .next t ∧ placed t (nodeAnswerFrame s r f) ∧
        ∀ i, s.findPlace n r.node = some i → (t.entry i).touched =
          ((s.entry i).touched || decide (f = [6, 1] ∧ (s.entry i).cln = r.cln))) ∧
    ((∀ r, x.work ≠ .passThrough r) →
      (∀ cut, x.allowed ≤ x.made → released (.replyWindowClose n cut)) ∧
      ∀ f, x.node < 256 → AdmittedFields x.work.name f → released (heardAnswer n x f)) ∧
    (∀ record k, s.capture.state = .opened record k → x.work.mark = some k → markAlone k →
      (∀ cut, x.allowed ≤ x.made → ∃ t, exec (.replyWindowClose n cut) s = .next t ∧
        CaptureCompleted s t record x.work.entry
          (.outcome (if x.badSeen || cut then .badAnswer else .noAnswer))) ∧
      ∀ f, x.node < 256 → AdmittedFields x.work.name f → ∃ t, exec (heardAnswer n x f) s = .next t ∧
        CaptureCompleted s t record x.work.entry (.node f))

/-- Starts, polls and stops that bring no result. A start exchange of either client that ends without an answer, or is
answered REFUSED, is a failed start (R94, R95): attempts raised up to the setting, last verdict NO_CONTACT or REFUSED,
the flag NO_CONTACT raised in the first case only, the end times and overdue-noted flags as they stood (R64), and the
entry in BACKOFF with the retry delay, or FAULTED when attempts has reached the setting and the policy halts the
outcome. A poll of a TESTING entry without an answer is a missed poll, the third gives NO_CONTACT; a head-end PROBE, and
a poll of an ENDING entry, are not counted (R97). A PROBE or STOP_TEST exchange concerning a PENDING entry changes
nothing for it, whatever is heard and however it ends, but for a hold by the capture it completes (R92, R103, R166). A
stop without an answer gives an ENDING entry NO_CONTACT (R103); that it leaves a TESTING entry as it was is the model's
choice, log 31. That the start is the entry's own is read from start sent, log 13. -/
def Obligations.UnansweredStartFails : Prop :=
  ∀ (s : State) (n : LineId) (x : Exchange) (w : Nat) (i : EntryId) (u : CurrentTest),
    (s.line n).engine = .awaiting x w → s.findPlace n x.node = some i →
    let attempts := min ((s.entry i).attempts + 1) s.settings.maxAttempts
    let failed (c : Instr) (v : Verdict) (halt : Bool) : Prop := ∃ t, exec c s = .next t ∧
      (t.entry i).attempts = attempts ∧ (t.entry i).lastVerdict = some (v, u.kind) ∧
      t.flag .noContact = (s.flag .noContact || decide (v = .noContact)) ∧
      (t.entry i).lastFunctionEnd = (s.entry i).lastFunctionEnd ∧
      (t.entry i).lastDurationEnd = (s.entry i).lastDurationEnd ∧
      (t.entry i).overdueFunction = (s.entry i).overdueFunction ∧
      (t.entry i).overdueDuration = (s.entry i).overdueDuration ∧
      (attempts = s.settings.maxAttempts → halt = true → (t.entry i).state = .faulted ∧ t.flag .halted = true) ∧
      (attempts ≠ s.settings.maxAttempts ∨ halt = false →
        (t.entry i).state = .backoff (min 1440 (s.settings.backoffBase * 2 ^ (attempts - 1))))
    let noContact (t : State) : Prop := (t.entry i).lastVerdict = some (.noContact, u.kind) ∧
      t.flag .noContact = true ∧ (t.entry i).state = afterVerdict s i u.kind .noContact 0
    let kept (t : State) (st : EntryState) : Prop :=
      (t.entry i).lastVerdict = (s.entry i).lastVerdict ∧ (t.entry i).state = st
    (x.work.name = .probe ∨ x.work.name = .stopTest → (s.entry i).state = .pending u → ∀ c,
      (∃ cut, c = .replyWindowClose n cut) ∨ (∃ heard, c = .lineAnswerReceived n heard) → ∃ t, exec c s = .next t ∧
        t.entry i = { s.entry i with held := (t.entry i).held } ∧
        ((∀ record k, s.capture.state = .opened record k → x.work.mark ≠ some k) → t.entries = s.entries)) ∧
    (x.work.name = .startFunction ∨ x.work.name = .startDuration → (s.entry i).state = .pending u →
      u.startSent = true →
      (∀ cut, x.allowed ≤ x.made → failed (.replyWindowClose n cut) .noContact s.policy[0]) ∧
      (x.node < 256 → failed (heardAnswer n x [1, 2]) .refused s.policy[1])) ∧
    (∀ cut, x.allowed ≤ x.made → ∃ t, exec (.replyWindowClose n cut) s = .next t ∧
      (∀ p, x.work = .poll p → (s.entry i).state = .testing u →
        (u.missed < 2 → kept t (.testing { u with missed := u.missed + 1 })) ∧ (2 ≤ u.missed → noContact t)) ∧
      (∀ r, x.work = .passThrough r → r.name = .probe → (s.entry i).state = .testing u →
        kept t (.testing u)) ∧
      (x.work.name = .probe → (s.entry i).state = .ending u → kept t (.ending u)) ∧
      (x.work.name = .stopTest → (s.entry i).state = .ending u → noContact t) ∧
      (x.work.name = .stopTest → (s.entry i).state = .testing u → kept t (.testing u)))

/-! ### Mains outages -/

/-- A change of a mains sense input moves the sense state as the table of R122 gives and touches nothing else. -/
def Obligations.MainsSenseChange : Prop :=
  ∀ (s : State) (n : LineId) (k : Nat),
    let m := s.mainsLine n
    (m.sense = .present → exec (.mainsSenseChange n false) s = .next
      { s with mains := s.mains.set n { m with sense := .lossPending s.settings.debounce } }) ∧
    (m.sense = .lossPending k → exec (.mainsSenseChange n true) s = .next
      { s with mains := s.mains.set n { m with sense := .present } }) ∧
    (m.sense = .absent → exec (.mainsSenseChange n true) s = .next
      { s with mains := s.mains.set n { m with sense := .restorePending s.settings.debounce } }) ∧
    (m.sense = .restorePending k → exec (.mainsSenseChange n false) s = .next
      { s with mains := s.mains.set n { m with sense := .absent } })

/-- A debounced loss (R123, R124, R125): the line in outage with its counters 0 and OUTAGE_START raised; an in-use entry
of the line with a test running ends ABORTED_OUTAGE with the recharge of its elapsed minutes, an unsent scheduler start
is taken back with block reason OUTAGE, a recorded one completing the capture WITHDRAWN (R167), an unsent head-end start
stays PENDING (its exchange may begin in the same step) and the entries without a test keep their state; no entry of
another line changes its state but for a start sent, and no other line its Mains Sense state or its queues. That the
command stands for the debounce timer's end is log 3. -/
def Obligations.DebouncedLoss : Prop :=
  ∀ (s : State) (n : LineId) (k : Nat), (s.mainsLine n).sense = .lossPending k →
    ∃ t, exec (.debouncedLoss n) s = .next t ∧
      t.mainsLine n = { sense := .absent, outageMinutes := 0, holdOff := 0 } ∧
      (∀ m, m ≠ n → t.mainsLine m = s.mainsLine m ∧ t.line m = s.line m) ∧ t.flag .outageStart = true ∧
      (∀ record mark i u, s.capture.state = .opened record mark → (s.entry i).inUse = true → (s.entry i).line = n →
        (s.entry i).state = .pending u → u.startSent = false → u.origin = .scheduler →
        (∃ c ∈ (s.line n).control, c.kind ≠ .stopTest ∧ c.entry = i ∧ c.mark = some mark) →
        t.capture.state = .idle (some { record with answer := some .withdrawn }) ∧ t.flag .captureHit = true) ∧
      ∀ i : EntryId,
        let e := s.entry i
        let r := (s.group e.group).rechargeHours * 60
        (e.inUse = false ∨ e.line ≠ n → (t.entry i).lastVerdict = e.lastVerdict ∧
          ((∀ u, e.state ≠ .pending u) → (t.entry i).state = e.state) ∧
          ∀ u, e.state = .pending u → ∃ b, (t.entry i).state = .pending { u with startSent := b }) ∧
        (e.inUse = true → e.line = n →
          (∀ u, e.state = .testing u ∨ e.state = .ending u →
            (t.entry i).lastVerdict = some (.abortedOutage, u.kind) ∧
            (s.policy[6] = true → (t.entry i).state = .faulted) ∧
            (s.policy[6] = false → (t.entry i).state =
              let left := verdictRecharge r e.rated (u.remainingAtStart - u.remaining) u.kind .abortedOutage
              if left = 0 then .ready else .recharging left)) ∧
          (∀ u, e.state = .pending u → u.startSent = true →
            (t.entry i).lastVerdict = some (.abortedOutage, u.kind) ∧
            (s.policy[6] = false → (t.entry i).state = .ready)) ∧
          (∀ u, e.state = .pending u → u.startSent = false → u.origin = .scheduler →
            (t.entry i).state = .ready ∧ (t.entry i).lastBlock = some .outage ∧
            (t.entry i).lastVerdict = e.lastVerdict) ∧
          (∀ u, e.state = .pending u → u.startSent = false → u.origin = .headend →
            ∃ b, (t.entry i).state = .pending { u with startSent := b }) ∧
          (e.state.test = none → (t.entry i).state = e.state ∧ (t.entry i).lastVerdict = e.lastVerdict))

/-- A debounced restore (R127, R129): the line out of outage, the counter at its value X, the hold-off at its setting,
OUTAGE_END raised; each in-use entry of the line is given the outage recharge its state calls for, and nothing else of
any entry changes. That the command stands for the debounce timer's end is log 3. -/
def Obligations.DebouncedRestore : Prop :=
  ∀ (s : State) (n : LineId) (k : Nat), (s.mainsLine n).sense = .restorePending k →
    let x := (s.mainsLine n).outageMinutes
    ∃ t, exec (.debouncedRestore n) s = .next t ∧
      t.mainsLine n = { sense := .present, outageMinutes := x, holdOff := s.settings.holdOff } ∧
      (∀ m, m ≠ n → t.mainsLine m = s.mainsLine m) ∧ t.lines = s.lines ∧ t.flag .outageEnd = true ∧
      OnlyFlagsDiffer { s with mains := t.mains, entries := t.entries } t ∧
      ∀ i : EntryId,
        let e := s.entry i
        let need := divUp ((s.group e.group).rechargeHours * 60 * min x e.rated) e.rated
        (e.inUse = false ∨ e.line ≠ n → t.entry i = e) ∧
        (e.inUse = true → e.line = n →
          (e.state = .ready → t.entry i = { e with state := if need = 0 then .ready else .recharging need }) ∧
          (∀ left, e.state = .recharging left → t.entry i = { e with state := .recharging (max left need) }) ∧
          (∀ left, e.state = .backoff left → t.entry i =
            if need = 0 then e else { e with state := .recharging need, attempts := 0 }) ∧
          (e.state = .faulted ∨ e.state.underTest = true → t.entry i = e))

/-! ### Line supply, abort and resets -/

/-- A line-supply fault (R146): the engine DOWN, the supply off, the retry timer at 10 s, LINE_FAULT raised; the
pass-through request in flight and those waiting are answered LINE_DOWN through the backlog in that order and removed,
queued starts removed, every PROBE and queued stop kept; each entry whose start was waiting or in flight goes back to
READY with block reason LINE_DOWN, every other entry keeps its state (R92, R103); a bridge stop in flight is put back
while the control queue has room, a poll in flight joins the poll client again; the other lines as they were; a recorded
request ended or removed completes the capture LINE_DOWN (R166, R167). A fault reported while DOWN changes nothing. The
order within the step is log 22, the stop put back whatever its entry's state log 29. -/
def Obligations.LineSupplyFault : Prop :=
  ∀ (s : State) (n : LineId),
    let l := s.line n
    (l.engine = .down → exec (.lineSupplyFault n) s = .next s) ∧
    (l.engine ≠ .down → ∃ t, exec (.lineSupplyFault n) s = .next t ∧
      (t.line n).engine = .down ∧ (t.line n).supplyOn = false ∧ (t.line n).retryTimer = some 10 ∧
      t.flag .lineFault = true ∧ (t.line n).pass = [] ∧
      (∀ c ∈ (t.line n).control, c.kind = .stopTest) ∧
      (∀ c ∈ l.control, c.kind = .stopTest → c ∈ (t.line n).control) ∧
      (t.line n).backlog = l.backlog ++ l.resetPass.map (outcomeFrame s .lineDown) ∧
      (∀ p ∈ l.polls, p ∈ (t.line n).polls) ∧
      (t.line n).pointer = l.pointer ∧ (t.line n).exchangeNumber = l.exchangeNumber ∧
      (∀ m, m ≠ n → t.line m = s.line m) ∧ t.tx = s.tx ∧ t.mains = s.mains ∧
      (∀ i u, (s.entry i).state = .pending u →
        let ended := (u.startSent = false ∧ ((∃ r ∈ l.pass, r.name.isStart = true ∧ r.entry = i) ∨
            ∃ c ∈ l.control, c.kind ≠ .stopTest ∧ c.entry = i)) ∨
          (u.startSent = true ∧ ∃ x, l.engine.exchange = some x ∧ x.work.name.isStart = true ∧
            s.findPlace n x.node = some i)
        (ended → (t.entry i).state = .ready ∧ (t.entry i).lastBlock = some .lineDown ∧
          (t.entry i).lastVerdict = (s.entry i).lastVerdict) ∧
        (¬ended → (t.entry i).state = .pending u ∧ (t.entry i).lastBlock = (s.entry i).lastBlock)) ∧
      (∀ i, (∀ u, (s.entry i).state ≠ .pending u) → (t.entry i).state = (s.entry i).state ∧
        (t.entry i).lastBlock = (s.entry i).lastBlock) ∧
      (∀ record k, s.capture.state = .opened record k →
        (∀ x, l.engine.exchange = some x → x.work.mark = some k →
          CaptureCompleted s t record x.work.entry (.outcome .lineDown)) ∧
        ((∃ r ∈ l.pass, r.mark = some k) ∨ (∃ c ∈ l.control, c.kind ≠ .stopTest ∧ c.mark = some k) →
          t.capture.state = .idle (some { record with answer := some (.outcome .lineDown) }) ∧
          t.flag .captureHit = true)) ∧
      (∀ x c, l.engine.exchange = some x → x.work = .control c → c.kind = .stopTest → l.control.length < 4 →
        ∃ d ∈ (t.line n).control, d.kind = .stopTest ∧ d.entry = c.entry ∧ d.node = c.node) ∧
      (∀ x p i u, l.engine.exchange = some x → x.work = .poll p → s.findPlace n x.node = some i →
        (s.entry i).state = .testing u → ∃ q ∈ (t.line n).polls, q.entry = i))

/-- The supply retry switches the supply on, and the sense is read (R147): with the limit still reported the supply goes
off and the timer restarts, no flag raised; otherwise the line leaves DOWN and is granted from its pointer as at the end
of a gap (R139, R144). On a line that LINE_RESET or BRIDGE_RESET took out of DOWN the read finds a limit, which is a new
line-supply fault, or nothing (R149, R150). A line whose sense is not due is not read (log 1). That the commands stand
for the timer's 10 seconds and the 50 ms is log 3. -/
def Obligations.SupplyRetryAndSense : Prop :=
  ∀ (s : State) (n : LineId),
    ((s.line n).engine = .down →
      ((s.line n).supplyOn = false → exec (.supplyRetry n) s = .next
        { s with lines := s.lines.set n { s.line n with supplyOn := true, retryTimer := none, senseDue := true } }) ∧
      ((s.line n).senseDue = true →
        exec (.supplySenseRead n true) s = .next
          { s with
            lines := s.lines.set n { s.line n with supplyOn := false, retryTimer := some 10, senseDue := false } } ∧
        exec (.supplySenseRead n false) s = exec (.gapEnd n)
          { s with lines := s.lines.set n { s.line n with engine := .gap, senseDue := false } } ∧
        ∃ t, exec (.supplySenseRead n false) s = .next t ∧ (t.line n).engine ≠ .down ∧
          (t.line n).senseDue = false ∧ (t.line n).supplyOn = (s.line n).supplyOn ∧ t.flags = s.flags)) ∧
    ((s.line n).engine ≠ .down → (s.line n).senseDue = true →
      let read : State := { s with lines := s.lines.set n { s.line n with senseDue := false } }
      exec (.supplySenseRead n true) s = exec (.lineSupplyFault n) read ∧
      exec (.supplySenseRead n false) s = .next read) ∧
    ((s.line n).senseDue = false → ∀ limit, exec (.supplySenseRead n limit) s = .next s)

/-- LINE_ABORT (R148): without an exchange in flight it changes nothing but its answer. With one, the exchange ends
ABORTED and the engine goes to GAP: an entry PENDING whose start of either client was in flight goes back to READY with
block reason ABORTED; a pass-through request is answered ABORTED, at once or through the backlog with the line HOLDING;
a bridge stop is put back at the tail of the control queue while it has room; a poll joins the poll client again, no
poll missed; a recorded request completes the capture ABORTED (R166). The other lines, the pass-through queue, the
tables and every entry stay but for that start's and a hold; an aborted PROBE or STOP_TEST so changes nothing for a
PENDING one (R92, R103). That a stop is put back whatever its entry's state is log 29, that a start is the entry's own
by start sent log 13. -/
def Obligations.LineAbort : Prop :=
  ∀ (s : State) (who : Requester) (k : Nat), s.mgmt = .working who (.request (.lineAbort k)) →
    (5 < k → ∃ t, exec .lineAbort s = .next t ∧ Answered s t who 24 .indexRange []) ∧
    ∀ h : k < 6,
      let n : LineId := ⟨k, h⟩
      let l := s.line n
      let answer := answerFrame s who 24 .ok []
      (l.engine.exchange = none → ∃ t, exec .lineAbort s = .next t ∧ Answered s t who 24 .ok []) ∧
      ∀ x, l.engine.exchange = some x → ∃ t, exec .lineAbort s = .next t ∧ (t.line n).pass = l.pass ∧
        (∀ m, m ≠ n → t.line m = s.line m) ∧ SameTables s t ∧ SameMap s t ∧
        (∀ i, (∀ u, (s.entry i).state ≠ .pending u) → (t.entry i).state = (s.entry i).state ∧
          (t.entry i).lastBlock = (s.entry i).lastBlock) ∧
        (∀ i u, x.work.name.isStart = true → s.findPlace n x.node = some i → (s.entry i).state = .pending u →
          u.startSent = true → (t.entry i).state = .ready ∧ (t.entry i).lastBlock = some .aborted ∧
            (t.entry i).lastVerdict = (s.entry i).lastVerdict) ∧
        (∀ i u, (s.entry i).state = .pending u →
          ¬(x.work.name.isStart = true ∧ s.findPlace n x.node = some i ∧ u.startSent = true) →
          (t.entry i).state = .pending u ∧ (t.entry i).lastBlock = (s.entry i).lastBlock) ∧
        (∀ record mark, s.capture.state = .opened record mark → x.work.mark = some mark →
          CaptureCompleted s t record x.work.entry (.outcome .aborted)) ∧
        (∀ r, x.work = .passThrough r →
          (l.backlog = [] → s.tx.length < 15 → t.tx = s.tx ++ [outcomeFrame s .aborted r, answer] ∧
            (t.line n).engine = .gap ∧ (t.line n).backlog = []) ∧
          (l.backlog ≠ [] ∨ 16 ≤ s.tx.length → (t.line n).engine = .holding ∧
            (t.line n).backlog = l.backlog ++ [outcomeFrame s .aborted r])) ∧
        ((∀ r, x.work ≠ .passThrough r) → (t.line n).engine = .gap ∧ (t.line n).backlog = l.backlog ∧
          (s.tx.length < 16 → t.tx = s.tx ++ [answer])) ∧
        (∀ c, x.work = .control c → c.kind = .stopTest → l.control.length < 4 → ∃ mark stops,
          (t.line n).control = l.control ++ [{ kind := .stopTest, entry := c.entry, node := c.node, mark := mark }] ++
            stops) ∧
        (∀ p i u, x.work = .poll p → s.findPlace n x.node = some i → (s.entry i).state = .testing u →
          ∃ q ∈ (t.line n).polls, q.entry = i)

/-- LINE_RESET (R22, R149), answered OK, or INDEX_RANGE for a line above 5: the line IDLE with its queues and polls
empty, the pointer L, settings and exchange number kept, the supply on, a line that was DOWN without its retry timer and
with its supply sense to be read; the pass-through request in flight and then each waiting one, in order, answered
ABORTED in the backlog behind the answers that stood there; a recorded request of the line completes the capture ABORTED
(R166, R167); the in-use entries of the line moved by R22, every other entry's state kept; the other lines and Mains
Sense untouched. The marks of recorded requests are the model's own (log 10). -/
def Obligations.LineReset : Prop :=
  ∀ (s : State) (who : Requester) (k : Nat), s.mgmt = .working who (.request (.lineReset k)) →
    (5 < k → ∃ t, exec .lineReset s = .next t ∧ Answered s t who 25 .indexRange []) ∧
    ∀ h : k < 6,
      let n : LineId := ⟨k, h⟩
      ∃ t, exec .lineReset s = .next t ∧
        (s.tx.length < 16 → t.tx = s.tx ++ [answerFrame s who 25 .ok []] ∧ t.mgmt = .idle) ∧
        (16 ≤ s.tx.length → t.tx = s.tx ∧ t.mgmt = .answering (answerFrame s who 25 .ok [])) ∧
        (t.line n).engine = .idle ∧ (t.line n).pass = [] ∧ (t.line n).control = [] ∧ (t.line n).polls = [] ∧
        (t.line n).pointer = .poll ∧ (t.line n).settings = (s.line n).settings ∧
        (t.line n).exchangeNumber = (s.line n).exchangeNumber ∧ (t.line n).supplyOn = true ∧
        (t.line n).retryTimer = none ∧
        (t.line n).senseDue = (decide ((s.line n).engine = .down) || (s.line n).senseDue) ∧
        (t.line n).backlog = (s.line n).backlog ++ (s.line n).resetPass.map (outcomeFrame s .aborted) ∧
        (∀ m, m ≠ n → t.line m = s.line m) ∧ t.mains = s.mains ∧ t.plan = s.plan ∧ SameMap s t ∧
        (∀ record mark i, s.capture.state = .opened record mark → (some mark, i) ∈ (s.line n).resetMarks →
          t.capture.state = .idle (some { record with answer := some (.outcome .aborted) }) ∧
          t.flag .captureHit = true) ∧
        ∀ i : EntryId,
          let e := s.entry i
          (e.inUse = false ∨ e.line ≠ n ∨ e.state.test = none → (t.entry i).state = e.state) ∧
          (e.inUse = true → e.line = n →
            (∀ u, e.state = .pending u → u.startSent = false →
              (t.entry i).state = .ready ∧ (t.entry i).lastBlock = some .aborted) ∧
            (∀ u, (e.state = .pending u ∧ u.startSent = true) ∨ e.state = .testing u ∨ e.state = .ending u →
              (t.entry i).state = (if u.kind = .duration
                then .recharging ((s.group e.group).rechargeHours * 60) else .ready) ∧
              (t.entry i).lastVerdict = e.lastVerdict))

/-- BRIDGE_RESET (R22, R90, R150, R154, R155, R156, R163, R176, R186): queues, backlogs and exchanges emptied, the
supplies on, the sense of a line that was DOWN to be read, the pass dropped, the rotation at the Lamp Path, the capture
IDLE without a record, the notice marks cleared; the entries moved by R22; the answer behind a frame whose sending had
begun. Clock, tables, Mains Sense, a save in flight, the flags, the notice number and the exchange numbers are kept.
When a frame's sending has begun is log 16. -/
def Obligations.BridgeReset : Prop :=
  ∀ (s : State) (who : Requester), s.mgmt = .working who (.request .bridgeReset) →
    ∃ t, exec .bridgeReset s = .next t ∧ t.mgmt = .idle ∧ t.rx = [] ∧
      t.tx = (if s.portOpen = true ∧ s.linkUp = true then s.tx.take 1 else []) ++
        [answerFrame s who 26 .ok []] ∧
      t.rotation = .lampPath ∧ t.lampWaiting = false ∧
      (t.passTimer = 0 ∧ t.passState = .idle ∧ t.plan = []) ∧
      (t.capture.state = .idle none ∧ t.capture.mode = .off ∧ t.capture.target = 1) ∧
      (t.noticePending = false ∧ t.noticeOwed = false ∧ t.noticeNumber = s.noticeNumber ∧ t.flags = s.flags) ∧
      (SameClock s t ∧ SameTables s t ∧ SameImage s t ∧ t.mains = s.mains ∧ SameMap s t) ∧
      (∀ n : LineId, (t.line n).engine = .idle ∧ (t.line n).pass = [] ∧ (t.line n).control = [] ∧
        (t.line n).polls = [] ∧ (t.line n).backlog = [] ∧ (t.line n).pointer = .poll ∧
        (t.line n).supplyOn = true ∧ (t.line n).retryTimer = none ∧
        (t.line n).senseDue = (decide ((s.line n).engine = .down) || (s.line n).senseDue) ∧
        (t.line n).exchangeNumber = (s.line n).exchangeNumber) ∧
      ∀ i : EntryId,
        let e := s.entry i
        (e.inUse = false ∨ e.state.test = none → t.entry i = e) ∧
        (e.inUse = true →
          (∀ u, e.state = .pending u → u.startSent = false →
            t.entry i = { e with state := .ready, lastBlock := some .aborted }) ∧
          (∀ u, (e.state = .pending u ∧ u.startSent = true) ∨ e.state = .testing u ∨ e.state = .ending u →
            t.entry i =
              { e with
                state := if u.kind = .duration then .recharging ((s.group e.group).rechargeHours * 60)
                  else .ready }))

/-! ### The trunk -/

/-- Arrival (R151, R152, R154, R187): a LAMP or MGMT request laid out as section 12.1 gives, with any padding behind it,
of the lighting type, to an address the filter mode admits (0 the station address, 1 also broadcast, 2 also the group
address, 3 every address), for this bridge or any (a MGMT request to the station address), joins the receive queue at
its tail, or at a full queue is discarded and raises INBOUND_DROPPED. A frame whose check sequence disagrees, of another
type, to an address not admitted, too short, of another version, a LAMP body that is not 9 bytes, a MGMT body of another
length than its code gives (R187), for another bridge, or met by a closed port changes nothing. That the check
sequence's verdict comes with the frame is log 25. -/
def Obligations.FrameArrival : Prop :=
  ∀ (s : State) (g : Frame) (padding : List Byte),
    let header := [1, if g.kind = .lampRequest then 1 else 3] ++ beBytes 2 g.tag.toNat ++ [g.bridge] ++
      beBytes 2 g.body.length
    let arriving := TrunkFrame.mk true g.dest g.source g.etype (header ++ g.body ++ padding)
    ((stationAddressOf s.strap).toNat = 0x02A73C000000 + s.strap.toNat ∧
      ∀ d : Mac, s.admits d = true ↔ d = stationAddressOf s.strap ∨
        (1 ≤ s.settings.filterMode.val ∧ d = 0xFFFFFFFFFFFF) ∨
        (2 ≤ s.settings.filterMode.val ∧ d = 0x03A73C0000FF) ∨ s.settings.filterMode = 3) ∧
    (s.portOpen = true → g.etype = s.settings.lightingType → s.admits g.dest = true →
      (g.bridge = 0 ∨ g.bridge = s.strap) →
      ((g.kind = .lampRequest ∧ g.body.length = 9) ∨
        (g.kind = .mgmtRequest ∧ MgmtLength g.body ∧ g.body.length < 65536 ∧
          g.dest = stationAddressOf s.strap)) →
      (s.rx.length < 16 → exec (.frameArrival arriving) s = .next { s with rx := s.rx ++ [g] }) ∧
      (16 ≤ s.rx.length → ∃ t, exec (.frameArrival arriving) s = .next t ∧ OnlyFlagsDiffer s t ∧
        t.flag .inboundDropped = true)) ∧
    ∀ f : TrunkFrame,
      let body := (f.payload.drop 7).take (natAt f.payload 5 2)
      (s.portOpen = false ∨ f.fcsAgrees = false ∨ f.etype ≠ s.settings.lightingType ∨ s.admits f.dest = false ∨
        f.payload.length < 7 ∨ byteAt f.payload 0 ≠ 1 ∨ f.payload.length < 7 + natAt f.payload 5 2 ∨
        (byteAt f.payload 1 = 1 ∧ body.length ≠ 9) ∨ (byteAt f.payload 1 = 3 ∧ ¬MgmtLength body) ∨
        (byteAt f.payload 4 ≠ 0 ∧ byteAt f.payload 4 ≠ s.strap) ∨
        (natAt f.payload 1 1 ≠ 1 ∧ natAt f.payload 1 1 ≠ 3) ∨
        (natAt f.payload 1 1 = 3 ∧ f.dest ≠ stationAddressOf s.strap) →
      exec (.frameArrival f) s = .next s)

/-- Sending (R155, R156, R184, R185): with the link down or the queue empty nothing is sent; the frame at the head of a
queue that was not full leaves it, and an owed notice becomes pending when it was the NOTICE. The place of a full queue
goes to the first waiter after the one last granted, whichever it is: the Management Engine places its answer, a line
the head of its backlog, the Event Unit a NOTICE with the 78 bytes of the status block, and the rotation pointer moves
to it; the Lamp Path takes its oldest request anew, with the immediate answer it now has in the place, and where the
request is now accepted or dropped the place goes at once to the next waiter (R158); with none waiting the place stays
free. That a frame is sent only with the port open and the link up is log 16; the owed notice before the grant is log
18; what the Lamp Path waits with is log 17, the fills a NOTICE shows log 32. -/
def Obligations.FrameSent : Prop :=
  ∀ s : State,
    (s.portOpen = false ∨ s.linkUp = false ∨ s.tx = [] → exec .frameSent s = .next s) ∧
    ∀ f rest, s.portOpen = true → s.linkUp = true → s.tx = f :: rest →
      let u : State :=
        { s with
          tx := rest
          noticePending := s.noticePending || (f.isNotice && s.noticeOwed)
          noticeOwed := s.noticeOwed && !f.isNotice }
      (rest.length < 15 → exec .frameSent s = .next u) ∧
      (rest.length = 15 →
        ((∀ w, ¬Waits u w) → exec .frameSent s = .next u) ∧
        ∀ w, FirstWaiter u w →
          (w ≠ .lampPath → ∃ t, exec .frameSent s = .next t ∧ PlaceTaken u t w) ∧
          (w = .lampPath → ∃ v,
            exec .lampRequestTake { u with lampWaiting := false, rotation := .lampPath } = .next v ∧
            (16 ≤ v.tx.length → exec .frameSent s = .next v) ∧
            (v.tx.length < 16 → ((∀ x, ¬Waits v x) → exec .frameSent s = .next v) ∧
              ∀ x, FirstWaiter v x → ∃ t, exec .frameSent s = .next t ∧ PlaceTaken v t x)) ∧
          (∀ answer, w = .management → s.mgmt = .answering answer → exec .frameSent s = .next
            { u with tx := rest ++ [answer], mgmt := .idle, rotation := .management }) ∧
          (∀ n g back, w = .backlog n → (s.line n).backlog = g :: back → exec .frameSent s = .next
            { u with
              tx := rest ++ [g], rotation := .backlog n
              lines := s.lines.set n { s.line n with
                backlog := back
                engine := if back = [] ∧ (s.line n).engine = .holding then .gap else (s.line n).engine } }) ∧
          (w = .eventUnit → ∃ g, g.kind = .notice ∧ g.tag = s.noticeNumber + 1 ∧
            g.dest = s.settings.reportAddress ∧ g.body.length = 78 ∧ StatusShows u g.body ∧ exec .frameSent s = .next
              { u with
                tx := rest ++ [g], noticePending := false, noticeNumber := s.noticeNumber + 1
                rotation := .eventUnit }) ∧
          (∀ before g after code, w = .lampPath → s.rx = before ++ g :: after →
            (∀ b ∈ before, b.kind ≠ .lampRequest) → g.kind = .lampRequest → s.lampOutcome g = .answer code →
            exec .frameSent s = .next
              { u with
                rx := before ++ after, lampWaiting := false, rotation := .lampPath
                tx := rest ++ [refusalFrame s g.source g.tag g.lampCln g.lampCode code] }))

/-- Placing into the transmit queue, and the link (R140, R155, R168, R183, R185): a pending notice is built with the
raised number as tag and the status block as body, 78 bytes that show every flag and live condition, to the report
address; the answer at the head of a backlog and the answer of ANSWERING enter at the tail; a HOLDING engine whose
backlog empties enters GAP. With the queue full nothing is placed. That a free place is taken by a command of its own is
log 27; the fills a NOTICE shows are log 32. -/
def Obligations.QueuePlacements : Prop :=
  ∀ (s : State) (n : LineId) (up : Bool),
    (exec (.trunkLinkChange up) s = .next { s with linkUp := up }) ∧
    (16 ≤ s.tx.length → exec .noticeBuild s = .next s ∧ exec (.backlogAnswerPlace n) s = .next s ∧
      exec .mgmtAnswerPlace s = .next s) ∧
    (s.tx.length < 16 → s.noticePending = true → ∃ f, exec .noticeBuild s = .next
        { s with tx := s.tx ++ [f], noticePending := false, noticeNumber := s.noticeNumber + 1 } ∧
      f.kind = .notice ∧ f.tag = s.noticeNumber + 1 ∧ f.dest = s.settings.reportAddress ∧
      f.source = stationAddressOf s.strap ∧ f.etype = s.settings.lightingType ∧
      f.body.length = 78 ∧ StatusShows s f.body) ∧
    (s.tx.length < 16 → ∀ answer, s.mgmt = .answering answer →
      exec .mgmtAnswerPlace s = .next { s with tx := s.tx ++ [answer], mgmt := .idle }) ∧
    (s.tx.length < 16 → ∀ f rest, (s.line n).backlog = f :: rest →
      exec (.backlogAnswerPlace n) s = .next
        { s with
          tx := s.tx ++ [f]
          lines := s.lines.set n { s.line n with
            backlog := rest
            engine := if rest = [] ∧ (s.line n).engine = .holding then .gap else (s.line n).engine } })

/-- Translation (R4, R5): by campus number it finds the in-use entry with that number, by place the in-use entry with
that line and node, unique by R3, and none where there is no such entry. The oldest LAMP request answered at once or
dropped (R104, R107, R158, R159, R160): a campus number of no entry is answered UNKNOWN at the station address and
dropped elsewhere; then BAD_REQUEST, BARRED, LOCKED, BUSY, QUOTA, ACTIVE_LIMIT, LINE_FULL or LINE_DOWN by the first
check that fails, the answer in the transmit queue, the entry, the counts and the line queues as they stood; a STOP_TEST
for an unsent start cancels it: the start leaves its queue, a head-end start answered CANCELLED through the backlog, the
entry is READY with last verdict, last block reason and attempts kept, a recorded start completes the capture CANCELLED
(R167), and the stop is answered CANCELLED. With the transmit queue full the Lamp Path waits instead. What a waiting
Lamp Path waits with is log 17, that SET_REST's value stands in argument byte 0 log 36. -/
def Obligations.LampRefusedAtOnce : Prop :=
  (∀ s : State,
    (MapUnique s → ∀ i : EntryId,
      (∀ c, s.findCln c = some i ↔ (s.entry i).inUse = true ∧ (s.entry i).cln = c) ∧
      ∀ n node, s.findPlace n node = some i ↔
        (s.entry i).inUse = true ∧ (s.entry i).line = n ∧ (s.entry i).node = node) ∧
    (∀ c, s.findCln c = none ↔ ∀ i : EntryId, ¬((s.entry i).inUse = true ∧ (s.entry i).cln = c)) ∧
    ∀ n node, s.findPlace n node = none ↔
      ∀ i : EntryId, ¬((s.entry i).inUse = true ∧ (s.entry i).line = n ∧ (s.entry i).node = node)) ∧
  ∀ (s : State) (before after : List Frame) (f : Frame),
    s.rx = before ++ f :: after → (∀ g ∈ before, g.kind ≠ .lampRequest) → f.kind = .lampRequest →
    s.lampWaiting = false →
    let refused (code : LampCode) : Prop :=
      (s.tx.length < 16 → exec .lampRequestTake s = .next
        { s with
          rx := before ++ after
          tx := s.tx ++ [refusalFrame s f.source f.tag f.lampCln f.lampCode code] }) ∧
      (16 ≤ s.tx.length → exec .lampRequestTake s = .next { s with lampWaiting := true })
    (s.findCln f.lampCln = none →
      (f.dest = stationAddressOf s.strap → refused .unknown) ∧
      (f.dest ≠ stationAddressOf s.strap → exec .lampRequestTake s = .next { s with rx := before ++ after })) ∧
    ∀ i, s.findCln f.lampCln = some i →
      (ReqName.ofCode f.lampCode = none → refused .badRequest) ∧
      ∀ name, ReqName.ofCode f.lampCode = some name →
        (name = .setRest → 1 < (byteAt f.body 6).toNat → refused .badRequest) ∧
        ((name = .setRest → (byteAt f.body 6).toNat ≤ 1) →
          let e := s.entry i
          let l := s.line e.line
          let start := name = .startFunction ∨ name = .startDuration
          let change := name = .setParam ∨ name = .setRest
          (e.barred = true → refused .barred) ∧
          (e.barred = false → e.locked = true → change → refused .locked) ∧
          (e.barred = false → start →
            e.state.underTest = true ∨ ((∃ left, e.state = .recharging left) ∧ f.lampOverride = false) →
            refused .busy) ∧
          (e.barred = false → start → StartableFrom e.state → f.lampOverride = false →
            s.quota e.group ≤ s.outOfService e.group → refused .quota) ∧
          (e.barred = false → start → StartPermitted s e f.lampOverride → 12 ≤ s.lineActive e.line →
            refused .activeLimit) ∧
          (LampPasses s e name f.lampOverride → 8 ≤ l.pass.length + l.backlog.length → refused .lineFull) ∧
          (LampPasses s e name f.lampOverride → l.pass.length + l.backlog.length < 8 → l.engine = .down →
            refused .lineDown) ∧
          ∀ u, e.barred = false → name = .stopTest → e.state = .pending u → u.startSent = false →
            (16 ≤ s.tx.length → exec .lampRequestTake s = .next { s with lampWaiting := true }) ∧
            (s.tx.length < 16 → ∃ t, exec .lampRequestTake s = .next t ∧ t.rx = before ++ after ∧
              t.tx = s.tx ++ [refusalFrame s f.source f.tag f.lampCln f.lampCode .cancelled] ∧
              (t.entry i).state = .ready ∧ (t.entry i).lastVerdict = e.lastVerdict ∧
              (t.entry i).lastBlock = e.lastBlock ∧ (t.entry i).attempts = e.attempts ∧
              (t.line e.line).backlog = l.backlog ++ (if u.origin = .headend then
                (l.pass.filter (PassRequest.isStartFor i)).map (outcomeFrame s .cancelled) else []) ∧
              (∀ record k, s.capture.state = .opened record k →
                (u.origin = .headend ∧ ∃ r ∈ l.pass, r.isStartFor i = true ∧ r.mark = some k) ∨
                  (u.origin = .scheduler ∧ ∃ c ∈ l.control, c.isStartFor i = true ∧ c.mark = some k) →
                CaptureCompleted s t record i (.outcome .cancelled)) ∧
              (l.engine ≠ .idle →
                (t.line e.line).pass = (if u.origin = .headend then
                  l.pass.filter (fun r => !r.isStartFor i) else l.pass) ∧
                ∃ stops, (t.line e.line).control = (if u.origin = .scheduler then
                  l.control.filter (fun c => !c.isStartFor i) else l.control) ++ stops)))

/-- The oldest LAMP request accepted (R105, R106, R108, R161): it leaves the receive queue and no answer is placed; a
start, also from BACKOFF, FAULTED or with override from RECHARGING, moves its entry to PENDING with origin HEADEND and
block reason NONE, attempts kept; a stop moves a TESTING entry to ENDING with stop requested and asks it of a PENDING
one whose start is sent, any other entry stays; while the line is not IDLE the request stands at the tail of the
pass-through queue with the particulars its answer will need, a start unsent; on an IDLE line whose clients have no work
and which owes no stop its exchange begins at once, a start sent (R137, R144). A watching capture whose target and mode
suit opens its record with these particulars (R165). That SET_REST's value stands in argument byte 0 is log 36. The mark
of a recorded request is the model's own (log 10). -/
def Obligations.LampAccepted : Prop :=
  ∀ (s : State) (before after : List Frame) (f : Frame) (name : ReqName) (i : EntryId),
    s.rx = before ++ f :: after → (∀ g ∈ before, g.kind ≠ .lampRequest) → f.kind = .lampRequest →
    s.lampWaiting = false → ReqName.ofCode f.lampCode = some name →
    (name = .setRest → (byteAt f.body 6).toNat ≤ 1) → s.findCln f.lampCln = some i →
    let e := s.entry i
    let l := s.line e.line
    LampPasses s e name f.lampOverride → l.pass.length + l.backlog.length < 8 → l.engine ≠ .down →
    let start := name = .startFunction ∨ name = .startDuration
    let arg := if name = .startDuration then { f.lampArg with b0 := byteOf e.rated } else f.lampArg
    let suits := s.capture.mode = .any ∨ (s.capture.mode = .change ∧ (name = .setParam ∨ name = .setRest)) ∨
      (s.capture.mode = .test ∧ (start ∨ name = .stopTest))
    ∃ t, exec .lampRequestTake s = .next t ∧ t.rx = before ++ after ∧ t.tx = s.tx ∧ t.lampWaiting = false ∧
      SameTables s t ∧ SameMap s t ∧
      (start → ∃ sent,
        (t.entry i).state = .pending
          { kind := if name = .startFunction then .function else .duration, origin := .headend,
            startedAt := none, remaining := 0, missed := 0, pollDue := 0, stopRequested := false,
            startSent := sent, remainingAtStart := 0 } ∧
        (t.entry i).lastBlock = some .cleared ∧ (t.entry i).attempts = e.attempts ∧
        (l.engine ≠ .idle → sent = false) ∧
        (l.engine = .idle → l.pass = [] → l.control = [] → l.polls = [] → s.owedStop e.line = none →
          sent = true)) ∧
      (name = .stopTest →
        (∀ u, e.state = .testing u → (t.entry i).state = .ending { u with stopRequested := true } ∧
          ∀ p ∈ (t.line e.line).polls, p.entry ≠ i) ∧
        (∀ u, e.state = .pending u → (t.entry i).state = .pending { u with stopRequested := true }) ∧
        (e.state.test = none ∨ e.state.isEnding = true → (t.entry i).state = e.state)) ∧
      (¬start → name ≠ .stopTest → l.engine ≠ .idle ∨ e.state.underTest = false →
        (t.entry i).state = e.state) ∧
      (l.engine ≠ .idle → ∃ mark, (t.line e.line).pass = l.pass ++
        [{ name := name, node := e.node, arg := arg, entry := i, cln := f.lampCln, tag := f.tag, source := f.source,
           dest := f.dest, mark := mark }]) ∧
      (l.engine = .idle → l.pass = [] → l.control = [] → l.polls = [] → s.owedStop e.line = none →
        (¬start → name ≠ .stopTest → (t.entry i).state = e.state) ∧ ∃ mark, t.line e.line =
          { l with
            engine := .sending
              { work := .passThrough
                  { name := name, node := e.node, arg := arg, entry := i, cln := f.lampCln, tag := f.tag,
                    source := f.source, dest := f.dest, mark := mark },
                node := e.node, bytes := lineRequestBytes e.node (l.exchangeNumber + 1) name arg,
                allowed := l.settings.attempts, made := 1, badSeen := false }
            exchangeNumber := l.exchangeNumber + 1, pointer := .passThrough }) ∧
      (s.capture.state = .watching → f.lampCln = s.capture.target → suits → t.capture.state = .opened
        { origin := .headend, name := name, arg := arg, line := e.line, node := e.node,
          clock := if s.clockValid then some s.minute else none, answer := none } s.capture.nextMark) ∧
      (s.capture.state ≠ .watching → name ≠ .stopTest → t.capture = s.capture)

/-! ### Management -/

/-- The IDLE Management Engine takes the oldest MGMT request out of the receive queue (R154, R168); a request name not
known is answered BAD_VALUE (R169). A busy engine takes nothing. Which request a body of section 12.3 names, code by
code with its parameters; the records of a WRITE_TABLE, one after another in the length of their table, and what the
bytes of each are read as, the written MAP record with its selection and flag bits (section 12.4). That the rows of
requests act on the request in hand is log 6. -/
def Obligations.MgmtRequestTaken : Prop :=
  ((∀ table first count : Byte,
      parseMgmt [1, table, first, count] = some (.readTable table first.toNat count.toNat)) ∧
    (∀ (table count : Byte) (bytes : List Byte), ∃ records,
      parseMgmt (2 :: table :: count :: bytes) = some (.writeTable table records) ∧
      (Table.ofCode table.toNat = none → records = []) ∧
      ∀ tb length, Table.ofCode table.toNat = some tb → recordLengths[table.toNat]? = some length →
        records.length = count.toNat ∧ ∀ k, k < count.toNat →
          records[k]? = some (parseRecord tb ((bytes.drop (k * length)).take length))) ∧
    (∀ m, m < 4294967296 → parseMgmt (3 :: beBytes 4 m) = some (.setClock m)) ∧
    (∀ take : Byte, parseMgmt [4, take] = some (.readStatus (decide (take ≠ 0)))) ∧
    (parseMgmt [16] = some .schedOn ∧ parseMgmt [17] = some .schedOff ∧ parseMgmt [23] = some .disarmCapture ∧
      parseMgmt [26] = some .bridgeReset ∧ parseMgmt [27] = some .saveImage) ∧
    (∀ k : Byte, parseMgmt [18, k] = some (.clearFault k.toNat) ∧ parseMgmt [19, k] = some (.setHold k.toNat) ∧
      parseMgmt [20, k] = some (.clearHold k.toNat) ∧ parseMgmt [21, k] = some (.clearTouched k.toNat) ∧
      parseMgmt [24, k] = some (.lineAbort k.toNat) ∧ parseMgmt [25, k] = some (.lineReset k.toNat)) ∧
    (∀ target mode action, target < 4294967296 →
      parseMgmt (22 :: (beBytes 4 target ++ [mode, action])) = some (.armCapture target mode action)) ∧
    (∀ set, set < 65536 → parseMgmt (28 :: beBytes 2 set) = some (.clearEvents (BitVec.ofNat 14 set))) ∧
    (∀ (code : Byte) rest, code.toNat ∉ [1, 2, 3, 4, 16, 17, 18, 19, 20, 21, 22, 23, 24, 25, 26, 27, 28] →
      parseMgmt (code :: rest) = none) ∧
    TableCodes ∧ MapWriteForm ∧ TableWriteForms) ∧
  ∀ s : State,
    (s.mgmt ≠ .idle → exec .mgmtRequestTake s = .next s) ∧
    ∀ before f after, s.mgmt = .idle → s.rx = before ++ f :: after →
      (∀ g ∈ before, g.kind ≠ .mgmtRequest) → f.kind = .mgmtRequest →
      (∀ r, parseMgmt f.body = some r → exec .mgmtRequestTake s = .next
        { s with rx := before ++ after, mgmt := .working { address := f.source, tag := f.tag } (.request r) }) ∧
      (parseMgmt f.body = none → ∃ t, exec .mgmtRequestTake s = .next t ∧
        Answered { s with rx := before ++ after } t { address := f.source, tag := f.tag } (natAt f.body 0 1)
          .badValue [])

/-- READ_TABLE (R171): an unknown table, a first index beyond the table and a count of 0 are answered at once; otherwise
the records are read one by one (that each is a step is log 7), at most 16 and none beyond the table's last index, and
answered with the last; the blackout entries are read at one moment (R51). What each record read holds stands byte by
byte before it (R20, R35, R46, R111, R115, R145, R173, sections 12.4 and 12.6), the bytes of absent fields free (log
11). That a refused answer carries the table code as asked and a count of 0 is log 24. -/
def Obligations.ReadTable : Prop :=
  CodeTables ∧ ∀ (s : State) (who : Requester), ReadForms s ∧
    (∀ table first count, s.mgmt = .working who (.request (.readTable table first count)) →
      (Table.ofCode table.toNat = none → ∃ t, exec .readTable s = .next t ∧
        Answered s t who 1 .unknownTable [table, 0]) ∧
      ∀ tb, Table.ofCode table.toNat = some tb →
        (tb.size ≤ first → ∃ t, exec .readTable s = .next t ∧ Answered s t who 1 .indexRange [table, 0]) ∧
        (tb = .blackout → first < 16 →
          let records := ((s.blackouts.drop first).take (min count 16)).map Blackout.record
          ∃ t, exec .readTable s = .next t ∧
            Answered s t who 1 .ok (table :: byteOf records.length :: records.flatten)) ∧
        (first < tb.size → count = 0 → ∃ t, exec .readTable s = .next t ∧ Answered s t who 1 .ok [table, 0]) ∧
        (first < tb.size → 0 < count → tb ≠ .blackout → exec .readTable s = .next
          { s with mgmt := .working who (.reading tb first (min (min count 16) (tb.size - first)) []) })) ∧
    (∀ tb next left got, s.mgmt = .working who (.reading tb next left got) →
      (2 ≤ left → exec .readTable s = .next
        { s with mgmt := .working who (.reading tb (next + 1) (left - 1) (got ++ [s.readRecord tb next])) }) ∧
      (left = 1 → ∃ t, exec .readTable s = .next t ∧ Answered s t who 1 .ok
        (byteOf tb.code :: byteOf (got.length + 1) :: (got ++ [s.readRecord tb next]).flatten)))

/-- WRITE_TABLE (R172): IMAGE_BUSY while a save runs, UNKNOWN_TABLE, OK with 0 for no records, else the walk begins;
each record is dealt with by its table's rule in a step of its own: a refusal ends the walk with its code and its
position counted from 1, the last taken record with OK and the number taken. The position byte of a request refused
before any record is examined is free (log 12). -/
def Obligations.WriteTableWalk : Prop :=
  ∀ (s : State) (who : Requester),
    (∀ table records, s.mgmt = .working who (.request (.writeTable table records)) →
      (s.save ≠ none → ∃ t p, exec .writeTable s = .next t ∧ Answered s t who 2 .imageBusy [p]) ∧
      (s.save = none → Table.ofCode table.toNat = none →
        ∃ t p, exec .writeTable s = .next t ∧ Answered s t who 2 .unknownTable [p]) ∧
      ∀ tb, s.save = none → Table.ofCode table.toNat = some tb →
        (records = [] → ∃ t, exec .writeTable s = .next t ∧ Answered s t who 2 .ok [0]) ∧
        (records ≠ [] → exec .writeTable s = .next { s with mgmt := .working who (.writing tb records 0) })) ∧
    (∀ tb r rest taken, s.mgmt = .working who (.writing tb (r :: rest) taken) →
      (∀ code, s.takeRecord r = .error code → ∃ t, exec (recordCommand r) s = .next t ∧
        Answered s t who 2 code [byteOf (taken + 1)]) ∧
      ∀ s', s.takeRecord r = .ok s' →
        (rest = [] → ∃ t, exec (recordCommand r) s = .next t ∧ Answered s' t who 2 .ok [byteOf (taken + 1)]) ∧
        (rest ≠ [] → exec (recordCommand r) s = .next
          { s' with mgmt := .working who (.writing tb rest (taken + 1)) }))

/-- The last record of a WRITE_TABLE of GROUP, CRITERIA, POLICY, LINE or BRIDGE, in its index range and with
structural values in range, is stored with its tuning values clamped, and nothing else changes but for the answer and,
with a BRIDGE record, a pass of a Scheduler that has become unarmed and the notice marks under a report address of all
zero (R24, R25, R71, R111, R115, R119, R131, R145, R173, R184); out of range it is refused. -/
def Obligations.SettingsRecordsStored : Prop :=
  ∀ (s : State) (who : Requester) (tb : Table) (taken : Nat),
    (∀ (r : GroupRecord) (ho : r.occupancy < 8) (hi : r.index < 32),
      s.mgmt = .working who (.writing tb [.group r] taken) →
      let fi := max 7 (min r.functionInterval 93)
      let di := max 90 (min r.durationInterval 730)
      ∃ t, exec .groupRecord s = .next t ∧ Answered { s with
        groups := s.groups.set r.index {
          quotaPercent := min r.quotaPercent 100, weight := max 1 (min r.weight 15), occupancy := ⟨r.occupancy, ho⟩,
          functionInterval := fi, functionTolerance := min (min r.functionTolerance 14) (fi / 2),
          durationInterval := di, durationTolerance := min (min r.durationTolerance 60) (di / 2),
          rechargeHours := max 1 (min r.rechargeHours 48) } } t who 2 .ok [byteOf (taken + 1)]) ∧
    (∀ (c v : Nat) (hc : c < 16), s.mgmt = .working who (.writing tb [.criteria c v] taken) →
      ∃ t, exec .criteriaRecord s = .next t ∧ Answered { s with
        criteria := s.criteria.set c (if v = 0 then 0 else max 800 (min v 3600)) }
        t who 2 .ok [byteOf (taken + 1)]) ∧
    (∀ (k : Nat) (halt : Bool) (hk : k < 8), s.mgmt = .working who (.writing tb [.policy k halt] taken) →
      ∃ t, exec .policyRecord s = .next t ∧
        Answered { s with policy := s.policy.set k halt } t who 2 .ok [byteOf (taken + 1)]) ∧
    (∀ (r : LineRecord) (hr : r.line < 6), s.mgmt = .working who (.writing tb [.line r] taken) →
      ∃ t, exec .lineRecord s = .next t ∧ Answered { s with
        lines := s.lines.set r.line { s.lines[r.line] with
          settings := {
            replyWindow := max 10 (min r.replyWindow 100), attempts := max 1 (min r.attempts 4),
            pollPeriod := max 15 (min r.pollPeriod 900) } } }
        t who 2 .ok [byteOf (taken + 1)]) ∧
    (∀ (r : BridgeRecord) (hm : r.filterMode < 4), s.mgmt = .working who (.writing tb [.bridge r] taken) →
      r.index = 0 → 0x0600 ≤ r.lightingType.toNat →
      let armed := r.schedulerEnable && s.clockValid && s.calendarValid
      ∃ t, exec .bridgeRecord s = .next t ∧ Answered { s with
        settings := {
          schedulerEnable := r.schedulerEnable, passInterval := max 1 (min r.passInterval 15),
          grace := max 5 (min r.grace 60), maxAttempts := max 1 (min r.maxAttempts 7),
          backoffBase := max 1 (min r.backoffBase 240), debounce := max 2 (min r.debounce 60),
          holdOff := min r.holdOff 1440, lightingType := r.lightingType, filterMode := ⟨r.filterMode, hm⟩,
          reportAddress := r.reportAddress, notifyMask := r.notifyMask }
        passState := if armed then s.passState else .idle
        plan := if armed then s.plan else []
        noticePending := s.noticePending && decide (r.reportAddress ≠ 0)
        noticeOwed := s.noticeOwed && decide (r.reportAddress ≠ 0) }
        t who 2 .ok [byteOf (taken + 1)]) ∧
    ∀ record code, s.mgmt = .working who (.writing tb [record] taken) →
      (code = .indexRange ∧
          ((∃ r, record = .group r ∧ 31 < r.index) ∨ (∃ c v, record = .criteria c v ∧ 15 < c) ∨
            (∃ k h, record = .policy k h ∧ 7 < k) ∨ (∃ r, record = .line r ∧ 5 < r.line) ∨
            (∃ r, record = .bridge r ∧ r.index ≠ 0)) ∨
        code = .badValue ∧
          ((∃ r, record = .group r ∧ r.index < 32 ∧ 7 < r.occupancy) ∨
            ∃ r, record = .bridge r ∧ r.index = 0 ∧ (r.lightingType.toNat < 0x0600 ∨ 3 < r.filterMode))) →
      ∃ t, exec (recordCommand record) s = .next t ∧ Answered s t who 2 code [byteOf (taken + 1)]

/-- The last record of a WRITE_TABLE of CALENDAR or BLACKOUT: a row's 48 masks replaced and its written mark set (R44,
R45); an insertion that passes the three checks put at its place in the order of R47, behind every entry held that
starts earlier or starts with it and ends no later, so behind those of equal start and end, and before every other; a
removal of every entry with its start and end (R48, R49); the refusals of R44, R48 and R49, in their order, leave the
tables as they stood. -/
def Obligations.CalendarRecordsStored : Prop :=
  ∀ (s : State) (who : Requester) (tb : Table) (taken : Nat),
    (∀ r : CalendarRecord, s.mgmt = .working who (.writing tb [.calendar r] taken) →
      (6 < r.row → ∃ t, exec .calendarRecord s = .next t ∧
        Answered s t who 2 .indexRange [byteOf (taken + 1)]) ∧
      ∀ h : r.row < 7, ∃ t, exec .calendarRecord s = .next t ∧ Answered
        { s with rows := s.rows.set r.row { masks := r.masks, written := true } } t who 2 .ok
        [byteOf (taken + 1)]) ∧
    (∀ b : Blackout, s.mgmt = .working who (.writing tb [.blackout b] taken) →
      (b.classes ≠ 0 →
        (b.stop ≤ b.start → ∃ t, exec .blackoutInsert s = .next t ∧
          Answered s t who 2 .badValue [byteOf (taken + 1)]) ∧
        (b.start < b.stop → b ∈ s.blackouts → ∃ t, exec .blackoutInsert s = .next t ∧
          Answered s t who 2 .duplicate [byteOf (taken + 1)]) ∧
        (b.start < b.stop → b ∉ s.blackouts → 16 ≤ s.blackouts.length →
          ∃ t, exec .blackoutInsert s = .next t ∧ Answered s t who 2 .tableFull [byteOf (taken + 1)]) ∧
        (b.start < b.stop → b ∉ s.blackouts → s.blackouts.length < 16 → BlackoutLaw s →
          ∃ t pre post, exec .blackoutInsert s = .next t ∧
            Answered { s with blackouts := pre ++ b :: post } t who 2 .ok [byteOf (taken + 1)] ∧
            s.blackouts = pre ++ post ∧
            (∀ x ∈ pre, x.start < b.start ∨ (x.start = b.start ∧ x.stop ≤ b.stop)) ∧
            (∀ y ∈ post, ¬(y.start < b.start ∨ (y.start = b.start ∧ y.stop ≤ b.stop))) ∧
            (pre ++ b :: post).Perm (b :: s.blackouts) ∧
            (pre ++ b :: post).Pairwise (fun x y => x.before y = true))) ∧
      (b.classes = 0 →
        (b.stop ≤ b.start → ∃ t, exec .blackoutRemove s = .next t ∧
          Answered s t who 2 .badValue [byteOf (taken + 1)]) ∧
        (b.start < b.stop → ∃ t, exec .blackoutRemove s = .next t ∧
          Answered { s with
            blackouts := s.blackouts.filter (fun h => decide (¬(h.start = b.start ∧ h.stop = b.stop))) }
            t who 2 .ok [byteOf (taken + 1)])))

/-- The last record of a WRITE_TABLE of MAP (R14 to R19): the refusals of R15 in their order, every group of a creation
value-checked (R17), moves, group changes, ratings, history and removals refused BUSY where R16 to R19 say; a creation
gives the entry R17 describes; a removal frees the entry, and one that selects history too is BUSY in RECHARGING and
taken in READY, BACKOFF and FAULTED; a change writes the selected groups, rated minutes rounded (R16), clears touched,
with a history write the overdue-noted flags (R19), and leaves all else. That writing the group or the place an entry
has is no change is log 33, that the groups a removal selects beside identity are not value-checked log 35, that a
selected value out of range is refused for a free entry too, where nothing is created, log 37. -/
def Obligations.MapRecordTaken : Prop :=
  ∀ (s : State) (who : Requester) (tb : Table) (taken : Nat) (r : MapRecord),
    s.mgmt = .working who (.writing tb [.map r] taken) →
    let refused (code : MgmtCode) : Prop :=
      ∃ t, exec .mapRecord s = .next t ∧ Answered s t who 2 code [byteOf (taken + 1)]
    let leaves (i : EntryId) (e : Entry) : Prop := ∃ t, exec .mapRecord s = .next t ∧
      Answered { s with entries := s.entries.set i e } t who 2 .ok [byteOf (taken + 1)]
    let rated := if r.rated < 30 then 30 else if 240 < r.rated then 240 else r.rated - r.rated % 30
    (239 < r.index → refused .indexRange) ∧
    ∀ h : r.index < 240,
      let i : EntryId := ⟨r.index, h⟩
      let e := s.entry i
      let frees := r.identity = true ∧ r.inUse = false
      let badIdentity := r.cln = 0 ∨ 999999 < r.cln ∨ 5 < r.line ∨ r.node = 0 ∨ 40 < r.node
      let creates := e.inUse = false ∧ r.identity = true ∧ r.inUse = true
      let bad := ¬frees ∧ ((r.identity = true ∧ badIdentity) ∨
        ((r.membership = true ∨ creates) ∧ 31 < r.group) ∨ ((r.ratings = true ∨ creates) ∧ 15 < r.battery))
      let moves := r.identity = true ∧ (r.line ≠ e.line.val ∨ r.node ≠ e.node)
      let busy := e.inUse = true ∧ ((e.state.underTest = true ∧
        (moves ∨ (r.membership = true ∧ r.group ≠ e.group.val) ∨ r.ratings = true)) ∨
          (e.state.outOfService = true ∧ r.history = true))
      let clash := ∃ j, j ≠ i ∧ (s.entry j).inUse = true ∧
        ((s.entry j).cln = r.cln ∨ ((s.entry j).line.val = r.line ∧ (s.entry j).node = r.node))
      let freesBusy := e.state.underTest = true ∨ (e.state.outOfService = true ∧ r.history = true)
      (bad → refused .badValue) ∧
      (e.inUse = true → frees → freesBusy → refused .busy) ∧
      (¬frees → ¬bad → busy → refused .busy) ∧
      (¬frees → ¬bad → ¬busy → r.identity = true → clash → refused .duplicate) ∧
      (creates → ¬bad → ¬clash → ∀ (line : LineId) (group : Fin 32) (battery : Fin 16),
        line.val = r.line → group.val = r.group → battery.val = r.battery → leaves i
          { Entry.free with
            inUse := true, cln := r.cln, line := line, node := r.node, group := group, battery := battery,
            rated := rated, locked := r.locked, barred := r.barred, held := r.held, addedAt := r.addedAt,
            lastFunctionEnd := r.lastFunctionEnd, lastDurationEnd := r.lastDurationEnd }) ∧
      (e.inUse = true → frees → ¬freesBusy → leaves i Entry.free) ∧
      (e.inUse = false → frees → leaves i e) ∧
      (e.inUse = false → r.identity = false → ¬bad → leaves i e) ∧
      (e.inUse = true → ¬frees → ¬bad → ¬busy → (r.identity = true → ¬clash) →
        ∀ (line : LineId) (group : Fin 32) (battery : Fin 16),
        (r.identity = true → line.val = r.line) → (r.identity = false → line = e.line) →
        (r.membership = true → group.val = r.group) → (r.membership = false → group = e.group) →
        (r.ratings = true → battery.val = r.battery) → (r.ratings = false → battery = e.battery) →
        leaves i
          { e with
            cln := if r.identity then r.cln else e.cln, line := line
            node := if r.identity then r.node else e.node
            group := group, battery := battery, rated := if r.ratings then rated else e.rated
            locked := if r.flags then r.locked else e.locked, barred := if r.flags then r.barred else e.barred
            held := if r.flags then r.held else e.held
            addedAt := if r.history then r.addedAt else e.addedAt
            lastFunctionEnd := if r.history then r.lastFunctionEnd else e.lastFunctionEnd
            lastDurationEnd := if r.history then r.lastDurationEnd else e.lastDurationEnd
            overdueFunction := e.overdueFunction && !r.history
            overdueDuration := e.overdueDuration && !r.history, touched := false })

/-- CLEAR_FAULT, SET_HOLD, CLEAR_HOLD and CLEAR_TOUCHED name one entry (R8, R9, R117, R175): INDEX_RANGE above 239
(but 255 for CLEAR_TOUCHED, which clears all), BAD_VALUE for a free entry, BUSY for a CLEAR_FAULT of an entry not
FAULTED; otherwise the one field changes, and nothing else but for the answer. -/
def Obligations.EntryControls : Prop :=
  ∀ (s : State) (who : Requester) (k : Nat),
    let refusals (request : MgmtRequest) (command : Instr) (code : Nat) : Prop :=
      s.mgmt = .working who (.request request) →
        (239 < k → ∃ t, exec command s = .next t ∧ Answered s t who code .indexRange []) ∧
        ∀ h : k < 240, (s.entry ⟨k, h⟩).inUse = false →
          ∃ t, exec command s = .next t ∧ Answered s t who code .badValue []
    let sets (request : MgmtRequest) (command : Instr) (code : Nat) (f : Entry → Entry) : Prop :=
      s.mgmt = .working who (.request request) → ∀ h : k < 240, (s.entry ⟨k, h⟩).inUse = true →
        ∃ t, exec command s = .next t ∧
          Answered { s with entries := s.entries.set k (f (s.entry ⟨k, h⟩)) } t who code .ok []
    refusals (.clearFault k) .clearFault 18 ∧ refusals (.setHold k) .setHold 19 ∧
    refusals (.clearHold k) .clearHold 20 ∧ (k ≠ 255 → refusals (.clearTouched k) .clearTouched 21) ∧
    sets (.setHold k) .setHold 19 (fun e => { e with held := true }) ∧
    sets (.clearHold k) .clearHold 20 (fun e => { e with held := false }) ∧
    (k ≠ 255 → sets (.clearTouched k) .clearTouched 21 (fun e => { e with touched := false })) ∧
    (s.mgmt = .working who (.request (.clearTouched 255)) → ∃ t, exec .clearTouched s = .next t ∧
      (∀ i : EntryId, t.entry i = { s.entry i with touched := false }) ∧
      Answered { s with entries := t.entries } t who 21 .ok []) ∧
    (s.mgmt = .working who (.request (.clearFault k)) → ∀ h : k < 240, (s.entry ⟨k, h⟩).inUse = true →
      ((s.entry ⟨k, h⟩).state = .faulted → ∃ t, exec .clearFault s = .next t ∧ Answered
        { s with entries := s.entries.set k { s.entry ⟨k, h⟩ with state := .ready, attempts := 0 } }
        t who 18 .ok []) ∧
      ((s.entry ⟨k, h⟩).state ≠ .faulted → ∃ t, exec .clearFault s = .next t ∧ Answered s t who 18 .busy []))

/-- SET_CLOCK, READ_STATUS, SCHED_ON, SCHED_OFF, CLEAR_EVENTS, ARM_CAPTURE and DISARM_CAPTURE (R40, R70, R71, R164,
R174, R175, R183): what each changes, and that nothing else changes but for the answer. The answer of READ_STATUS shows
every flag and live condition and, byte by byte, the capture's state, target, mode, action and record; the fills it
shows are log 32. -/
def Obligations.BridgeControls : Prop :=
  ∀ (s : State) (who : Requester),
    (∀ m, s.mgmt = .working who (.request (.setClock m)) →
      (s.save ≠ none → ∃ t, exec .setClock s = .next t ∧ Answered s t who 3 .imageBusy []) ∧
      (s.save = none → ∃ t, exec .setClock s = .next t ∧ Answered
        { s with minute := m, seconds := 0, clockValid := true, flags := s.flags &&& 0x1FFF } t who 3 .ok [])) ∧
    (∀ take, s.mgmt = .working who (.request (.readStatus take)) → ∃ t status capture,
      exec .readStatus s = .next t ∧
      Answered { s with flags := if take then 0 else s.flags } t who 4 .ok (status ++ capture) ∧
      status.length = 78 ∧ StatusShows s status ∧ CaptureShows s.capture capture ∧
      (CaptureLaw s → capture.length = 30 ∧ natAt capture 1 4 = s.capture.target)) ∧
    (s.mgmt = .working who (.request .schedOn) → ∃ t, exec .schedOn s = .next t ∧
      Answered { s with settings := { s.settings with schedulerEnable := true } } t who 16 .ok []) ∧
    (s.mgmt = .working who (.request .schedOff) → ∃ t, exec .schedOff s = .next t ∧
      Answered { s with settings := { s.settings with schedulerEnable := false }, passState := .idle, plan := [] }
        t who 17 .ok []) ∧
    (∀ set, s.mgmt = .working who (.request (.clearEvents set)) → ∃ t, exec .clearEvents s = .next t ∧
      Answered { s with flags := s.flags &&& ~~~ set } t who 28 .ok []) ∧
    (∀ target mode action, s.mgmt = .working who (.request (.armCapture target mode action)) →
      (target = 0 ∨ 999999 < target ∨ mode = 0 ∨ 3 < mode.toNat ∨ 1 < action.toNat →
        ∃ t, exec .armCapture s = .next t ∧ Answered s t who 22 .badValue []) ∧
      ∀ m a, 1 ≤ target → target ≤ 999999 → m ≠ .off → mode = byteOf m.code → action = byteOf a.code →
        ∃ t, exec .armCapture s = .next t ∧ Answered
          { s with capture := { s.capture with target := target, mode := m, action := a, state := .watching } }
          t who 22 .ok []) ∧
    (s.mgmt = .working who (.request .disarmCapture) → ∃ t, exec .disarmCapture s = .next t ∧
      ((∃ r, s.capture.state = .idle r) → Answered s t who 23 .ok []) ∧
      ((∀ r, s.capture.state ≠ .idle r) →
        Answered { s with capture := { s.capture with state := .idle none } } t who 23 .ok []))

/-- The course of an image save (R177, R178, R179): SAVE_IMAGE begins it or is answered IMAGE_BUSY; the item reached is
read, in the order BRIDGE, LINE, POLICY, CRITERIA, GROUP, CALENDAR row by row, BLACKOUT, MAP entry by entry, and what
each holds is its table's code and count and its records in read form (section 12.4); erase, header, contents and CRC
follow as the flash reports; the read-back decides between IMAGE_SAVED and IMAGE_FAULT and leaves the flash as written;
an operation not reported in time ends the save with IMAGE_FAULT. That the header stands for the contents so far, that
the flash is empty from SAVE_IMAGE on, and what an operation not reported leaves is log 14. -/
def Obligations.ImageSave : Prop :=
  (saveOrder.head? = some .bridge ∧ ∀ k item, saveOrder[k]? = some item → item.next = saveOrder[k + 1]?) ∧
  ∀ (s : State), ImageItems s ∧
    (∀ who, s.mgmt = .working who (.request .saveImage) →
      (s.save ≠ none → ∃ t, exec .saveImage s = .next t ∧ Answered s t who 27 .imageBusy []) ∧
      (s.save = none → ∃ t, exec .saveImage s = .next t ∧
        Answered { s with save := some .erasing, flash := [] } t who 27 .ok [])) ∧
    (∀ item, s.save = some (.reading item) → exec .imageSaveRead s = .next
      { s with save := some (.writing (s.itemBytes item) item.next) }) ∧
    (∀ back, s.save = some .erasing → exec (.flashOpDone back) s = .next
      { s with flash := [], save := some .header }) ∧
    (∀ back, s.save = some .header → exec (.flashOpDone back) s = .next
      { s with flash := [0x48, 0x57, 0x36, 0x32, 1, 0, 0, 0, 0], save := some (.reading .bridge) }) ∧
    (∀ back bytes next, s.save = some (.writing bytes next) →
      let image := [0x48, 0x57, 0x36, 0x32, 1] ++ beBytes 4 ((s.flash.drop 9).length + bytes.length) ++
        s.flash.drop 9 ++ bytes
      exec (.flashOpDone back) s = .next
        { s with
          flash := image
          save := match next with
            | some item => some (.reading item)
            | none => some (.crc (beBytes 4 (crc32 image).toNat)) }) ∧
    (∀ back bytes, s.save = some (.crc bytes) → exec (.flashOpDone back) s = .next
      { s with flash := s.flash ++ bytes, save := some (.readBack bytes) }) ∧
    (∀ back crc, s.save = some (.readBack crc) → ∃ t, exec (.flashOpDone back) s = .next t ∧
      OnlyFlagsDiffer { s with save := none } t ∧
      (beBytes 4 (crc32 (back.take (back.length - 4))).toNat = crc → t.flag .imageSaved = true) ∧
      (beBytes 4 (crc32 (back.take (back.length - 4))).toNat ≠ crc → t.flag .imageFault = true)) ∧
    (s.save = some .erasing ∨ s.save = some .header ∨ (∃ b i, s.save = some (.writing b i)) ∨
        (∃ b, s.save = some (.crc b)) →
      ∃ t, exec .flashOpTimeout s = .next t ∧ OnlyFlagsDiffer { s with save := none } t ∧
        t.flag .imageFault = true)

/-- A record read and written back loses no bit between the read form and the write form (R20, R24, R35, R44, R48, R51,
R111, R115, R145, R173, section 12.4). GROUP, CRITERIA, POLICY, LINE and a written CALENDAR row are taken and change
nothing; BRIDGE likewise where no pass and no notice is to be dropped; a row not yet written becomes written. A MAP
record reads as the entry's fields with no group selected, and its only effect is to clear touched (R14). A BLACKOUT
record reads as its entry, which the list already holds (DUPLICATE). -/
def Obligations.ReadRecordWritesBack : Prop :=
  ∀ (s : State) (tb : Table) (k : Nat),
    (TablesInRange s → tb = .group ∨ tb = .criteria ∨ tb = .policy ∨ tb = .line → k < tb.size →
      (s.readRecord tb k).length = tb.writeLength ∧
      s.takeRecord (parseRecord tb (s.readRecord tb k)) = .ok s) ∧
    (∀ h : k < 7, (s.readRecord .calendar k).length = 50 ∧
      s.takeRecord (parseRecord .calendar (s.readRecord .calendar k)) =
        .ok { s with rows := s.rows.set k { s.rows[k] with written := true } }) ∧
    (TablesInRange s → s.armed = true ∨ (s.passState = .idle ∧ s.plan = []) →
      s.settings.reportAddress ≠ 0 ∨ (s.noticePending = false ∧ s.noticeOwed = false) →
      (s.readRecord .bridge 0).length = 27 ∧
      s.takeRecord (parseRecord .bridge (s.readRecord .bridge 0)) = .ok s) ∧
    (∀ b, s.blackouts[k]? = some b → b.start < b.stop → b.stop < 4294967296 → b.classes ≠ 0 →
      (s.readRecord .blackout k).length = 9 ∧ parseRecord .blackout (s.readRecord .blackout k) = .blackout b ∧
      s.takeRecord (.blackout b) = .error .duplicate) ∧
    ∀ h : k < 240,
      let e := s.entry ⟨k, h⟩
      entryOk e → (∀ t, e.addedAt = some t ∨ e.lastFunctionEnd = some t ∨ e.lastDurationEnd = some t →
        t < 4294967296) →
      let record : MapRecord :=
        { index := k, identity := false, membership := false, ratings := false, flags := false, history := false,
          inUse := e.inUse, cln := e.cln, line := e.line.val, node := e.node, group := e.group.val,
          battery := e.battery.val, rated := e.rated, locked := e.locked, barred := e.barred, held := e.held,
          addedAt := e.addedAt, lastFunctionEnd := e.lastFunctionEnd, lastDurationEnd := e.lastDurationEnd }
      (s.readRecord .map k).length = 53 ∧ parseRecord .map (s.readRecord .map k) = .map record ∧
        s.takeRecord (.map record) = .ok { s with entries := s.entries.set k { e with touched := false } }

/-! ### The laws of the device -/

/-- Every law of Safety holds in the state after reset. -/
def Obligations.LawsHoldAtReset : Prop :=
  QueuesBounded .reset ∧ ClockLaw .reset ∧ TablesInRange .reset ∧ EntriesInRange .reset ∧ MapUnique .reset ∧
  PlanLaw .reset ∧ NoticeLaw .reset ∧ SupplyLaw .reset ∧ PollsLaw .reset ∧ ActiveLaw .reset ∧ MainsLaw .reset ∧
  CaptureLaw .reset ∧ BlackoutLaw .reset

/-- Every step keeps the bounds of the queues (R141, R142, R154, R155). -/
def Obligations.StepKeepsQueuesBounded : Prop :=
  ∀ s t : State, QueuesBounded s → step s = .next t → QueuesBounded t

/-- Every step keeps the clock in its law (R38), and the stored values of the tables in their ranges (R25, R111, R145,
R173). -/
def Obligations.StepKeepsClockAndTables : Prop :=
  ∀ s t : State, step s = .next t → (ClockLaw s → ClockLaw t) ∧ (TablesInRange s → TablesInRange t)

/-- Every step keeps every entry in its ranges (R2, R10, R12, R16, R94), the tables being in theirs. -/
def Obligations.StepKeepsEntriesInRange : Prop :=
  ∀ s t : State, TablesInRange s → EntriesInRange s → step s = .next t → EntriesInRange t

/-- No step gives two in-use entries one campus number or one line and node (R3). -/
def Obligations.StepKeepsMapUnique : Prop := ∀ s t : State, MapUnique s → step s = .next t → MapUnique t

/-- Every step keeps the plan list in its law (R60, R77), the weights being in range. -/
def Obligations.StepKeepsPlan : Prop :=
  ∀ s t : State, TablesInRange s → PlanLaw s → step s = .next t → PlanLaw t

/-- Every step keeps at most one NOTICE in the transmit queue, and the notice marks in their law (R184, R185). -/
def Obligations.StepKeepsOneNotice : Prop := ∀ s t : State, NoticeLaw s → step s = .next t → NoticeLaw t

/-- Every step keeps the supply and the poll client of every line in their laws (R143, R146, R147). -/
def Obligations.StepKeepsLines : Prop :=
  ∀ s t : State, SupplyLaw s → PollsLaw s → step s = .next t → SupplyLaw t ∧ PollsLaw t

/-- No step brings a line's active count above 12 (R11). -/
def Obligations.StepKeepsActiveCount : Prop := ∀ s t : State, ActiveLaw s → step s = .next t → ActiveLaw t

/-- Every step keeps Mains Sense, the capture and the blackout list in their laws (R47, R126, R131, R163), the
settings being in range. -/
def Obligations.StepKeepsMainsCaptureAndBlackouts : Prop :=
  ∀ s t : State, TablesInRange s → MainsLaw s → CaptureLaw s → BlackoutLaw s → step s = .next t →
    MainsLaw t ∧ CaptureLaw t ∧ BlackoutLaw t

end Statements
end

