-- ==== Sys2Proof/Laws/Answers.lean ====
section
/-! SUPPORT. What the checks make of an answer heard whole. -/

namespace Sys2Proof.Laws

open Sys2Proof.Machine

/-- An answer of a known form, heard whole for the exchange in flight, is taken or bad by its fields alone (R134). -/
theorem checkAnswer_heard (node : Nat) (number : Byte) (name : ReqName) (f : List Byte) (hn : node < 256)
    (hf : answerLength (byteAt f 0).toNat = some (f.length + 3)) :
    checkAnswer node number name (byteOf node :: number :: f ++ [crc8 (byteOf node :: number :: f)]) =
      match decodeAnswer name f with
      | some a => .taken a f
      | none => .bad := by
  have h0 : f ≠ [] := by
    rintro rfl
    simp [byteAt, answerLength] at hf
  obtain ⟨k, rest, rfl⟩ := List.exists_cons_of_ne_nil h0
  have hk : byteAt (byteOf node :: number :: (k :: rest) ++ [crc8 (byteOf node :: number :: k :: rest)]) 2 = k := rfl
  have hk0 : byteAt (k :: rest) 0 = k := rfl
  rw [hk0] at hf
  have hb : closeAnswer (byteOf node :: number :: (k :: rest) ++ [crc8 (byteOf node :: number :: k :: rest)]) =
      byteOf node :: number :: (k :: rest) ++ [crc8 (byteOf node :: number :: k :: rest)] := by
    unfold closeAnswer
    rw [hk, hf]
    exact List.take_of_length_le (by simp)
  have hi : answerIncomplete (byteOf node :: number :: (k :: rest) ++ [crc8 (byteOf node :: number :: k :: rest)]) = false := by
    unfold answerIncomplete
    rw [hk, hf]
    simp
  have hl : 1 ≤ rest.length := by
    cases rest with
    | nil =>
      unfold answerLength at hf
      split at hf <;> simp at hf
    | cons _ _ => simp
  have ht : (byteOf node :: number :: (k :: rest) ++ [crc8 (byteOf node :: number :: k :: rest)]).take
      ((byteOf node :: number :: (k :: rest) ++ [crc8 (byteOf node :: number :: k :: rest)]).length - 1) =
      byteOf node :: number :: (k :: rest) := by
    rw [List.length_append, List.length_singleton, Nat.add_sub_cancel, List.take_left]
  have hc : byteAt (byteOf node :: number :: (k :: rest) ++ [crc8 (byteOf node :: number :: k :: rest)])
      ((byteOf node :: number :: (k :: rest) ++ [crc8 (byteOf node :: number :: k :: rest)]).length - 1) =
      crc8 (byteOf node :: number :: k :: rest) := by
    unfold byteAt
    simp
  have hm : (byteAt (byteOf node :: number :: (k :: rest) ++ [crc8 (byteOf node :: number :: k :: rest)]) 0).toNat =
      node := by
    show (byteOf node).toNat = node
    simp [byteOf, BitVec.toNat_ofNat]
    omega
  have hx : byteAt (byteOf node :: number :: (k :: rest) ++ [crc8 (byteOf node :: number :: k :: rest)]) 1 = number := rfl
  unfold checkAnswer
  dsimp only
  rw [hb, hi, ht, hc, hm, hx]
  have hlen : ¬ (byteOf node :: number :: (k :: rest) ++ [crc8 (byteOf node :: number :: k :: rest)]).length < 4 := by
    simp
  rw [if_neg (by simp), if_neg hlen, if_neg (by simp), if_neg (by simp), if_neg (by simp)]
  rfl

end Sys2Proof.Laws
end

