-- ==== Sys2Proof/Laws/State.lean ====
section
/-! SUPPORT. What each update of the state changes: one lemma for each field of each update, and the reads of an entry,
a line, a Mains Sense line and a group through the updates. -/

namespace Sys2Proof.Laws

open Sys2Proof.Machine

/-! ### setEntry -/

@[simp] theorem setEntry_strap (s : State) (i : EntryId) (e : Entry) : (s.setEntry i e).strap = s.strap := rfl
@[simp] theorem setEntry_portOpen (s : State) (i : EntryId) (e : Entry) :
    (s.setEntry i e).portOpen = s.portOpen := rfl
@[simp] theorem setEntry_linkUp (s : State) (i : EntryId) (e : Entry) : (s.setEntry i e).linkUp = s.linkUp := rfl
@[simp] theorem setEntry_rx (s : State) (i : EntryId) (e : Entry) : (s.setEntry i e).rx = s.rx := rfl
@[simp] theorem setEntry_tx (s : State) (i : EntryId) (e : Entry) : (s.setEntry i e).tx = s.tx := rfl
@[simp] theorem setEntry_rotation (s : State) (i : EntryId) (e : Entry) :
    (s.setEntry i e).rotation = s.rotation := rfl
@[simp] theorem setEntry_lampWaiting (s : State) (i : EntryId) (e : Entry) :
    (s.setEntry i e).lampWaiting = s.lampWaiting := rfl
@[simp] theorem setEntry_capture (s : State) (i : EntryId) (e : Entry) : (s.setEntry i e).capture = s.capture := rfl
@[simp] theorem setEntry_mgmt (s : State) (i : EntryId) (e : Entry) : (s.setEntry i e).mgmt = s.mgmt := rfl
@[simp] theorem setEntry_save (s : State) (i : EntryId) (e : Entry) : (s.setEntry i e).save = s.save := rfl
@[simp] theorem setEntry_flash (s : State) (i : EntryId) (e : Entry) : (s.setEntry i e).flash = s.flash := rfl
@[simp] theorem setEntry_entries (s : State) (i : EntryId) (e : Entry) :
    (s.setEntry i e).entries = s.entries.set i e := rfl
@[simp] theorem setEntry_groups (s : State) (i : EntryId) (e : Entry) : (s.setEntry i e).groups = s.groups := rfl
@[simp] theorem setEntry_minute (s : State) (i : EntryId) (e : Entry) : (s.setEntry i e).minute = s.minute := rfl
@[simp] theorem setEntry_clockValid (s : State) (i : EntryId) (e : Entry) :
    (s.setEntry i e).clockValid = s.clockValid := rfl
@[simp] theorem setEntry_seconds (s : State) (i : EntryId) (e : Entry) : (s.setEntry i e).seconds = s.seconds := rfl
@[simp] theorem setEntry_rows (s : State) (i : EntryId) (e : Entry) : (s.setEntry i e).rows = s.rows := rfl
@[simp] theorem setEntry_blackouts (s : State) (i : EntryId) (e : Entry) :
    (s.setEntry i e).blackouts = s.blackouts := rfl
@[simp] theorem setEntry_passTimer (s : State) (i : EntryId) (e : Entry) :
    (s.setEntry i e).passTimer = s.passTimer := rfl
@[simp] theorem setEntry_passState (s : State) (i : EntryId) (e : Entry) :
    (s.setEntry i e).passState = s.passState := rfl
@[simp] theorem setEntry_plan (s : State) (i : EntryId) (e : Entry) : (s.setEntry i e).plan = s.plan := rfl
@[simp] theorem setEntry_criteria (s : State) (i : EntryId) (e : Entry) :
    (s.setEntry i e).criteria = s.criteria := rfl
@[simp] theorem setEntry_policy (s : State) (i : EntryId) (e : Entry) : (s.setEntry i e).policy = s.policy := rfl
@[simp] theorem setEntry_mains (s : State) (i : EntryId) (e : Entry) : (s.setEntry i e).mains = s.mains := rfl
@[simp] theorem setEntry_lines (s : State) (i : EntryId) (e : Entry) : (s.setEntry i e).lines = s.lines := rfl
@[simp] theorem setEntry_settings (s : State) (i : EntryId) (e : Entry) :
    (s.setEntry i e).settings = s.settings := rfl
@[simp] theorem setEntry_flags (s : State) (i : EntryId) (e : Entry) : (s.setEntry i e).flags = s.flags := rfl
@[simp] theorem setEntry_noticePending (s : State) (i : EntryId) (e : Entry) :
    (s.setEntry i e).noticePending = s.noticePending := rfl
@[simp] theorem setEntry_noticeOwed (s : State) (i : EntryId) (e : Entry) :
    (s.setEntry i e).noticeOwed = s.noticeOwed := rfl
@[simp] theorem setEntry_noticeNumber (s : State) (i : EntryId) (e : Entry) :
    (s.setEntry i e).noticeNumber = s.noticeNumber := rfl
@[simp] theorem setEntry_pending (s : State) (i : EntryId) (e : Entry) : (s.setEntry i e).pending = s.pending := rfl
@[simp] theorem setEntry_line (s : State) (i : EntryId) (e : Entry) (k : LineId) :
    (s.setEntry i e).line k = s.line k := rfl
@[simp] theorem setEntry_mainsLine (s : State) (i : EntryId) (e : Entry) (k : LineId) :
    (s.setEntry i e).mainsLine k = s.mainsLine k := rfl
@[simp] theorem setEntry_group (s : State) (i : EntryId) (e : Entry) (r' : Fin 32) :
    (s.setEntry i e).group r' = s.group r' := rfl
@[simp] theorem setEntry_flag (s : State) (i : EntryId) (e : Entry) (f' : EventFlag) :
    (s.setEntry i e).flag f' = s.flag f' := rfl
@[simp] theorem setEntry_inOutage (s : State) (i : EntryId) (e : Entry) (k : LineId) :
    (s.setEntry i e).inOutage k = s.inOutage k := rfl

/-! ### setEntryState -/

@[simp] theorem setEntryState_strap (s : State) (i : EntryId) (st : EntryState) :
    (s.setEntryState i st).strap = s.strap := rfl
@[simp] theorem setEntryState_portOpen (s : State) (i : EntryId) (st : EntryState) :
    (s.setEntryState i st).portOpen = s.portOpen := rfl
@[simp] theorem setEntryState_linkUp (s : State) (i : EntryId) (st : EntryState) :
    (s.setEntryState i st).linkUp = s.linkUp := rfl
@[simp] theorem setEntryState_rx (s : State) (i : EntryId) (st : EntryState) : (s.setEntryState i st).rx = s.rx := rfl
@[simp] theorem setEntryState_tx (s : State) (i : EntryId) (st : EntryState) : (s.setEntryState i st).tx = s.tx := rfl
@[simp] theorem setEntryState_rotation (s : State) (i : EntryId) (st : EntryState) :
    (s.setEntryState i st).rotation = s.rotation := rfl
@[simp] theorem setEntryState_lampWaiting (s : State) (i : EntryId) (st : EntryState) :
    (s.setEntryState i st).lampWaiting = s.lampWaiting := rfl
@[simp] theorem setEntryState_capture (s : State) (i : EntryId) (st : EntryState) :
    (s.setEntryState i st).capture = s.capture := rfl
@[simp] theorem setEntryState_mgmt (s : State) (i : EntryId) (st : EntryState) :
    (s.setEntryState i st).mgmt = s.mgmt := rfl
@[simp] theorem setEntryState_save (s : State) (i : EntryId) (st : EntryState) :
    (s.setEntryState i st).save = s.save := rfl
@[simp] theorem setEntryState_flash (s : State) (i : EntryId) (st : EntryState) :
    (s.setEntryState i st).flash = s.flash := rfl
@[simp] theorem setEntryState_entries (s : State) (i : EntryId) (st : EntryState) :
    (s.setEntryState i st).entries = s.entries.set i { s.entry i with state := st } := rfl
@[simp] theorem setEntryState_groups (s : State) (i : EntryId) (st : EntryState) :
    (s.setEntryState i st).groups = s.groups := rfl
@[simp] theorem setEntryState_minute (s : State) (i : EntryId) (st : EntryState) :
    (s.setEntryState i st).minute = s.minute := rfl
@[simp] theorem setEntryState_clockValid (s : State) (i : EntryId) (st : EntryState) :
    (s.setEntryState i st).clockValid = s.clockValid := rfl
@[simp] theorem setEntryState_seconds (s : State) (i : EntryId) (st : EntryState) :
    (s.setEntryState i st).seconds = s.seconds := rfl
@[simp] theorem setEntryState_rows (s : State) (i : EntryId) (st : EntryState) :
    (s.setEntryState i st).rows = s.rows := rfl
@[simp] theorem setEntryState_blackouts (s : State) (i : EntryId) (st : EntryState) :
    (s.setEntryState i st).blackouts = s.blackouts := rfl
@[simp] theorem setEntryState_passTimer (s : State) (i : EntryId) (st : EntryState) :
    (s.setEntryState i st).passTimer = s.passTimer := rfl
@[simp] theorem setEntryState_passState (s : State) (i : EntryId) (st : EntryState) :
    (s.setEntryState i st).passState = s.passState := rfl
@[simp] theorem setEntryState_plan (s : State) (i : EntryId) (st : EntryState) :
    (s.setEntryState i st).plan = s.plan := rfl
@[simp] theorem setEntryState_criteria (s : State) (i : EntryId) (st : EntryState) :
    (s.setEntryState i st).criteria = s.criteria := rfl
@[simp] theorem setEntryState_policy (s : State) (i : EntryId) (st : EntryState) :
    (s.setEntryState i st).policy = s.policy := rfl
@[simp] theorem setEntryState_mains (s : State) (i : EntryId) (st : EntryState) :
    (s.setEntryState i st).mains = s.mains := rfl
@[simp] theorem setEntryState_lines (s : State) (i : EntryId) (st : EntryState) :
    (s.setEntryState i st).lines = s.lines := rfl
@[simp] theorem setEntryState_settings (s : State) (i : EntryId) (st : EntryState) :
    (s.setEntryState i st).settings = s.settings := rfl
@[simp] theorem setEntryState_flags (s : State) (i : EntryId) (st : EntryState) :
    (s.setEntryState i st).flags = s.flags := rfl
@[simp] theorem setEntryState_noticePending (s : State) (i : EntryId) (st : EntryState) :
    (s.setEntryState i st).noticePending = s.noticePending := rfl
@[simp] theorem setEntryState_noticeOwed (s : State) (i : EntryId) (st : EntryState) :
    (s.setEntryState i st).noticeOwed = s.noticeOwed := rfl
@[simp] theorem setEntryState_noticeNumber (s : State) (i : EntryId) (st : EntryState) :
    (s.setEntryState i st).noticeNumber = s.noticeNumber := rfl
@[simp] theorem setEntryState_pending (s : State) (i : EntryId) (st : EntryState) :
    (s.setEntryState i st).pending = s.pending := rfl
@[simp] theorem setEntryState_line (s : State) (i : EntryId) (st : EntryState) (k : LineId) :
    (s.setEntryState i st).line k = s.line k := rfl
@[simp] theorem setEntryState_mainsLine (s : State) (i : EntryId) (st : EntryState) (k : LineId) :
    (s.setEntryState i st).mainsLine k = s.mainsLine k := rfl
@[simp] theorem setEntryState_group (s : State) (i : EntryId) (st : EntryState) (r' : Fin 32) :
    (s.setEntryState i st).group r' = s.group r' := rfl
@[simp] theorem setEntryState_flag (s : State) (i : EntryId) (st : EntryState) (f' : EventFlag) :
    (s.setEntryState i st).flag f' = s.flag f' := rfl
@[simp] theorem setEntryState_inOutage (s : State) (i : EntryId) (st : EntryState) (k : LineId) :
    (s.setEntryState i st).inOutage k = s.inOutage k := rfl

/-! ### setBlock -/

@[simp] theorem setBlock_strap (s : State) (i : EntryId) (r : BlockReason) : (s.setBlock i r).strap = s.strap := rfl
@[simp] theorem setBlock_portOpen (s : State) (i : EntryId) (r : BlockReason) :
    (s.setBlock i r).portOpen = s.portOpen := rfl
@[simp] theorem setBlock_linkUp (s : State) (i : EntryId) (r : BlockReason) :
    (s.setBlock i r).linkUp = s.linkUp := rfl
@[simp] theorem setBlock_rx (s : State) (i : EntryId) (r : BlockReason) : (s.setBlock i r).rx = s.rx := rfl
@[simp] theorem setBlock_tx (s : State) (i : EntryId) (r : BlockReason) : (s.setBlock i r).tx = s.tx := rfl
@[simp] theorem setBlock_rotation (s : State) (i : EntryId) (r : BlockReason) :
    (s.setBlock i r).rotation = s.rotation := rfl
@[simp] theorem setBlock_lampWaiting (s : State) (i : EntryId) (r : BlockReason) :
    (s.setBlock i r).lampWaiting = s.lampWaiting := rfl
@[simp] theorem setBlock_capture (s : State) (i : EntryId) (r : BlockReason) :
    (s.setBlock i r).capture = s.capture := rfl
@[simp] theorem setBlock_mgmt (s : State) (i : EntryId) (r : BlockReason) : (s.setBlock i r).mgmt = s.mgmt := rfl
@[simp] theorem setBlock_save (s : State) (i : EntryId) (r : BlockReason) : (s.setBlock i r).save = s.save := rfl
@[simp] theorem setBlock_flash (s : State) (i : EntryId) (r : BlockReason) : (s.setBlock i r).flash = s.flash := rfl
@[simp] theorem setBlock_entries (s : State) (i : EntryId) (r : BlockReason) :
    (s.setBlock i r).entries = s.entries.set i { s.entry i with lastBlock := some r } := rfl
@[simp] theorem setBlock_groups (s : State) (i : EntryId) (r : BlockReason) :
    (s.setBlock i r).groups = s.groups := rfl
@[simp] theorem setBlock_minute (s : State) (i : EntryId) (r : BlockReason) :
    (s.setBlock i r).minute = s.minute := rfl
@[simp] theorem setBlock_clockValid (s : State) (i : EntryId) (r : BlockReason) :
    (s.setBlock i r).clockValid = s.clockValid := rfl
@[simp] theorem setBlock_seconds (s : State) (i : EntryId) (r : BlockReason) :
    (s.setBlock i r).seconds = s.seconds := rfl
@[simp] theorem setBlock_rows (s : State) (i : EntryId) (r : BlockReason) : (s.setBlock i r).rows = s.rows := rfl
@[simp] theorem setBlock_blackouts (s : State) (i : EntryId) (r : BlockReason) :
    (s.setBlock i r).blackouts = s.blackouts := rfl
@[simp] theorem setBlock_passTimer (s : State) (i : EntryId) (r : BlockReason) :
    (s.setBlock i r).passTimer = s.passTimer := rfl
@[simp] theorem setBlock_passState (s : State) (i : EntryId) (r : BlockReason) :
    (s.setBlock i r).passState = s.passState := rfl
@[simp] theorem setBlock_plan (s : State) (i : EntryId) (r : BlockReason) : (s.setBlock i r).plan = s.plan := rfl
@[simp] theorem setBlock_criteria (s : State) (i : EntryId) (r : BlockReason) :
    (s.setBlock i r).criteria = s.criteria := rfl
@[simp] theorem setBlock_policy (s : State) (i : EntryId) (r : BlockReason) :
    (s.setBlock i r).policy = s.policy := rfl
@[simp] theorem setBlock_mains (s : State) (i : EntryId) (r : BlockReason) : (s.setBlock i r).mains = s.mains := rfl
@[simp] theorem setBlock_lines (s : State) (i : EntryId) (r : BlockReason) : (s.setBlock i r).lines = s.lines := rfl
@[simp] theorem setBlock_settings (s : State) (i : EntryId) (r : BlockReason) :
    (s.setBlock i r).settings = s.settings := rfl
@[simp] theorem setBlock_flags (s : State) (i : EntryId) (r : BlockReason) : (s.setBlock i r).flags = s.flags := rfl
@[simp] theorem setBlock_noticePending (s : State) (i : EntryId) (r : BlockReason) :
    (s.setBlock i r).noticePending = s.noticePending := rfl
@[simp] theorem setBlock_noticeOwed (s : State) (i : EntryId) (r : BlockReason) :
    (s.setBlock i r).noticeOwed = s.noticeOwed := rfl
@[simp] theorem setBlock_noticeNumber (s : State) (i : EntryId) (r : BlockReason) :
    (s.setBlock i r).noticeNumber = s.noticeNumber := rfl
@[simp] theorem setBlock_pending (s : State) (i : EntryId) (r : BlockReason) :
    (s.setBlock i r).pending = s.pending := rfl
@[simp] theorem setBlock_line (s : State) (i : EntryId) (r : BlockReason) (k : LineId) :
    (s.setBlock i r).line k = s.line k := rfl
@[simp] theorem setBlock_mainsLine (s : State) (i : EntryId) (r : BlockReason) (k : LineId) :
    (s.setBlock i r).mainsLine k = s.mainsLine k := rfl
@[simp] theorem setBlock_group (s : State) (i : EntryId) (r : BlockReason) (r' : Fin 32) :
    (s.setBlock i r).group r' = s.group r' := rfl
@[simp] theorem setBlock_flag (s : State) (i : EntryId) (r : BlockReason) (f' : EventFlag) :
    (s.setBlock i r).flag f' = s.flag f' := rfl
@[simp] theorem setBlock_inOutage (s : State) (i : EntryId) (r : BlockReason) (k : LineId) :
    (s.setBlock i r).inOutage k = s.inOutage k := rfl

/-! ### takeBack -/

@[simp] theorem takeBack_strap (s : State) (i : EntryId) (r : BlockReason) : (s.takeBack i r).strap = s.strap := rfl
@[simp] theorem takeBack_portOpen (s : State) (i : EntryId) (r : BlockReason) :
    (s.takeBack i r).portOpen = s.portOpen := rfl
@[simp] theorem takeBack_linkUp (s : State) (i : EntryId) (r : BlockReason) :
    (s.takeBack i r).linkUp = s.linkUp := rfl
@[simp] theorem takeBack_rx (s : State) (i : EntryId) (r : BlockReason) : (s.takeBack i r).rx = s.rx := rfl
@[simp] theorem takeBack_tx (s : State) (i : EntryId) (r : BlockReason) : (s.takeBack i r).tx = s.tx := rfl
@[simp] theorem takeBack_rotation (s : State) (i : EntryId) (r : BlockReason) :
    (s.takeBack i r).rotation = s.rotation := rfl
@[simp] theorem takeBack_lampWaiting (s : State) (i : EntryId) (r : BlockReason) :
    (s.takeBack i r).lampWaiting = s.lampWaiting := rfl
@[simp] theorem takeBack_capture (s : State) (i : EntryId) (r : BlockReason) :
    (s.takeBack i r).capture = s.capture := rfl
@[simp] theorem takeBack_mgmt (s : State) (i : EntryId) (r : BlockReason) : (s.takeBack i r).mgmt = s.mgmt := rfl
@[simp] theorem takeBack_save (s : State) (i : EntryId) (r : BlockReason) : (s.takeBack i r).save = s.save := rfl
@[simp] theorem takeBack_flash (s : State) (i : EntryId) (r : BlockReason) : (s.takeBack i r).flash = s.flash := rfl
@[simp] theorem takeBack_entries (s : State) (i : EntryId) (r : BlockReason) :
    (s.takeBack i r).entries = s.entries.set i { s.entry i with state := .ready, lastBlock := some r } := rfl
@[simp] theorem takeBack_groups (s : State) (i : EntryId) (r : BlockReason) :
    (s.takeBack i r).groups = s.groups := rfl
@[simp] theorem takeBack_minute (s : State) (i : EntryId) (r : BlockReason) :
    (s.takeBack i r).minute = s.minute := rfl
@[simp] theorem takeBack_clockValid (s : State) (i : EntryId) (r : BlockReason) :
    (s.takeBack i r).clockValid = s.clockValid := rfl
@[simp] theorem takeBack_seconds (s : State) (i : EntryId) (r : BlockReason) :
    (s.takeBack i r).seconds = s.seconds := rfl
@[simp] theorem takeBack_rows (s : State) (i : EntryId) (r : BlockReason) : (s.takeBack i r).rows = s.rows := rfl
@[simp] theorem takeBack_blackouts (s : State) (i : EntryId) (r : BlockReason) :
    (s.takeBack i r).blackouts = s.blackouts := rfl
@[simp] theorem takeBack_passTimer (s : State) (i : EntryId) (r : BlockReason) :
    (s.takeBack i r).passTimer = s.passTimer := rfl
@[simp] theorem takeBack_passState (s : State) (i : EntryId) (r : BlockReason) :
    (s.takeBack i r).passState = s.passState := rfl
@[simp] theorem takeBack_plan (s : State) (i : EntryId) (r : BlockReason) : (s.takeBack i r).plan = s.plan := rfl
@[simp] theorem takeBack_criteria (s : State) (i : EntryId) (r : BlockReason) :
    (s.takeBack i r).criteria = s.criteria := rfl
@[simp] theorem takeBack_policy (s : State) (i : EntryId) (r : BlockReason) :
    (s.takeBack i r).policy = s.policy := rfl
@[simp] theorem takeBack_mains (s : State) (i : EntryId) (r : BlockReason) : (s.takeBack i r).mains = s.mains := rfl
@[simp] theorem takeBack_lines (s : State) (i : EntryId) (r : BlockReason) : (s.takeBack i r).lines = s.lines := rfl
@[simp] theorem takeBack_settings (s : State) (i : EntryId) (r : BlockReason) :
    (s.takeBack i r).settings = s.settings := rfl
@[simp] theorem takeBack_flags (s : State) (i : EntryId) (r : BlockReason) : (s.takeBack i r).flags = s.flags := rfl
@[simp] theorem takeBack_noticePending (s : State) (i : EntryId) (r : BlockReason) :
    (s.takeBack i r).noticePending = s.noticePending := rfl
@[simp] theorem takeBack_noticeOwed (s : State) (i : EntryId) (r : BlockReason) :
    (s.takeBack i r).noticeOwed = s.noticeOwed := rfl
@[simp] theorem takeBack_noticeNumber (s : State) (i : EntryId) (r : BlockReason) :
    (s.takeBack i r).noticeNumber = s.noticeNumber := rfl
@[simp] theorem takeBack_pending (s : State) (i : EntryId) (r : BlockReason) :
    (s.takeBack i r).pending = s.pending := rfl
@[simp] theorem takeBack_line (s : State) (i : EntryId) (r : BlockReason) (k : LineId) :
    (s.takeBack i r).line k = s.line k := rfl
@[simp] theorem takeBack_mainsLine (s : State) (i : EntryId) (r : BlockReason) (k : LineId) :
    (s.takeBack i r).mainsLine k = s.mainsLine k := rfl
@[simp] theorem takeBack_group (s : State) (i : EntryId) (r : BlockReason) (r' : Fin 32) :
    (s.takeBack i r).group r' = s.group r' := rfl
@[simp] theorem takeBack_flag (s : State) (i : EntryId) (r : BlockReason) (f' : EventFlag) :
    (s.takeBack i r).flag f' = s.flag f' := rfl
@[simp] theorem takeBack_inOutage (s : State) (i : EntryId) (r : BlockReason) (k : LineId) :
    (s.takeBack i r).inOutage k = s.inOutage k := rfl

/-! ### setLine -/

@[simp] theorem setLine_strap (s : State) (n : LineId) (l : LineEngine) : (s.setLine n l).strap = s.strap := rfl
@[simp] theorem setLine_portOpen (s : State) (n : LineId) (l : LineEngine) :
    (s.setLine n l).portOpen = s.portOpen := rfl
@[simp] theorem setLine_linkUp (s : State) (n : LineId) (l : LineEngine) : (s.setLine n l).linkUp = s.linkUp := rfl
@[simp] theorem setLine_rx (s : State) (n : LineId) (l : LineEngine) : (s.setLine n l).rx = s.rx := rfl
@[simp] theorem setLine_tx (s : State) (n : LineId) (l : LineEngine) : (s.setLine n l).tx = s.tx := rfl
@[simp] theorem setLine_rotation (s : State) (n : LineId) (l : LineEngine) :
    (s.setLine n l).rotation = s.rotation := rfl
@[simp] theorem setLine_lampWaiting (s : State) (n : LineId) (l : LineEngine) :
    (s.setLine n l).lampWaiting = s.lampWaiting := rfl
@[simp] theorem setLine_capture (s : State) (n : LineId) (l : LineEngine) : (s.setLine n l).capture = s.capture := rfl
@[simp] theorem setLine_mgmt (s : State) (n : LineId) (l : LineEngine) : (s.setLine n l).mgmt = s.mgmt := rfl
@[simp] theorem setLine_save (s : State) (n : LineId) (l : LineEngine) : (s.setLine n l).save = s.save := rfl
@[simp] theorem setLine_flash (s : State) (n : LineId) (l : LineEngine) : (s.setLine n l).flash = s.flash := rfl
@[simp] theorem setLine_entries (s : State) (n : LineId) (l : LineEngine) : (s.setLine n l).entries = s.entries := rfl
@[simp] theorem setLine_groups (s : State) (n : LineId) (l : LineEngine) : (s.setLine n l).groups = s.groups := rfl
@[simp] theorem setLine_minute (s : State) (n : LineId) (l : LineEngine) : (s.setLine n l).minute = s.minute := rfl
@[simp] theorem setLine_clockValid (s : State) (n : LineId) (l : LineEngine) :
    (s.setLine n l).clockValid = s.clockValid := rfl
@[simp] theorem setLine_seconds (s : State) (n : LineId) (l : LineEngine) : (s.setLine n l).seconds = s.seconds := rfl
@[simp] theorem setLine_rows (s : State) (n : LineId) (l : LineEngine) : (s.setLine n l).rows = s.rows := rfl
@[simp] theorem setLine_blackouts (s : State) (n : LineId) (l : LineEngine) :
    (s.setLine n l).blackouts = s.blackouts := rfl
@[simp] theorem setLine_passTimer (s : State) (n : LineId) (l : LineEngine) :
    (s.setLine n l).passTimer = s.passTimer := rfl
@[simp] theorem setLine_passState (s : State) (n : LineId) (l : LineEngine) :
    (s.setLine n l).passState = s.passState := rfl
@[simp] theorem setLine_plan (s : State) (n : LineId) (l : LineEngine) : (s.setLine n l).plan = s.plan := rfl
@[simp] theorem setLine_criteria (s : State) (n : LineId) (l : LineEngine) :
    (s.setLine n l).criteria = s.criteria := rfl
@[simp] theorem setLine_policy (s : State) (n : LineId) (l : LineEngine) : (s.setLine n l).policy = s.policy := rfl
@[simp] theorem setLine_mains (s : State) (n : LineId) (l : LineEngine) : (s.setLine n l).mains = s.mains := rfl
@[simp] theorem setLine_lines (s : State) (n : LineId) (l : LineEngine) :
    (s.setLine n l).lines = s.lines.set n l := rfl
@[simp] theorem setLine_settings (s : State) (n : LineId) (l : LineEngine) :
    (s.setLine n l).settings = s.settings := rfl
@[simp] theorem setLine_flags (s : State) (n : LineId) (l : LineEngine) : (s.setLine n l).flags = s.flags := rfl
@[simp] theorem setLine_noticePending (s : State) (n : LineId) (l : LineEngine) :
    (s.setLine n l).noticePending = s.noticePending := rfl
@[simp] theorem setLine_noticeOwed (s : State) (n : LineId) (l : LineEngine) :
    (s.setLine n l).noticeOwed = s.noticeOwed := rfl
@[simp] theorem setLine_noticeNumber (s : State) (n : LineId) (l : LineEngine) :
    (s.setLine n l).noticeNumber = s.noticeNumber := rfl
@[simp] theorem setLine_pending (s : State) (n : LineId) (l : LineEngine) : (s.setLine n l).pending = s.pending := rfl
@[simp] theorem setLine_entry (s : State) (n : LineId) (l : LineEngine) (j : EntryId) :
    (s.setLine n l).entry j = s.entry j := rfl
@[simp] theorem setLine_mainsLine (s : State) (n : LineId) (l : LineEngine) (k : LineId) :
    (s.setLine n l).mainsLine k = s.mainsLine k := rfl
@[simp] theorem setLine_group (s : State) (n : LineId) (l : LineEngine) (r' : Fin 32) :
    (s.setLine n l).group r' = s.group r' := rfl
@[simp] theorem setLine_flag (s : State) (n : LineId) (l : LineEngine) (f' : EventFlag) :
    (s.setLine n l).flag f' = s.flag f' := rfl
@[simp] theorem setLine_inOutage (s : State) (n : LineId) (l : LineEngine) (k : LineId) :
    (s.setLine n l).inOutage k = s.inOutage k := rfl

/-! ### setEngine -/

@[simp] theorem setEngine_strap (s : State) (n : LineId) (g : Engine) : (s.setEngine n g).strap = s.strap := rfl
@[simp] theorem setEngine_portOpen (s : State) (n : LineId) (g : Engine) :
    (s.setEngine n g).portOpen = s.portOpen := rfl
@[simp] theorem setEngine_linkUp (s : State) (n : LineId) (g : Engine) : (s.setEngine n g).linkUp = s.linkUp := rfl
@[simp] theorem setEngine_rx (s : State) (n : LineId) (g : Engine) : (s.setEngine n g).rx = s.rx := rfl
@[simp] theorem setEngine_tx (s : State) (n : LineId) (g : Engine) : (s.setEngine n g).tx = s.tx := rfl
@[simp] theorem setEngine_rotation (s : State) (n : LineId) (g : Engine) :
    (s.setEngine n g).rotation = s.rotation := rfl
@[simp] theorem setEngine_lampWaiting (s : State) (n : LineId) (g : Engine) :
    (s.setEngine n g).lampWaiting = s.lampWaiting := rfl
@[simp] theorem setEngine_capture (s : State) (n : LineId) (g : Engine) : (s.setEngine n g).capture = s.capture := rfl
@[simp] theorem setEngine_mgmt (s : State) (n : LineId) (g : Engine) : (s.setEngine n g).mgmt = s.mgmt := rfl
@[simp] theorem setEngine_save (s : State) (n : LineId) (g : Engine) : (s.setEngine n g).save = s.save := rfl
@[simp] theorem setEngine_flash (s : State) (n : LineId) (g : Engine) : (s.setEngine n g).flash = s.flash := rfl
@[simp] theorem setEngine_entries (s : State) (n : LineId) (g : Engine) : (s.setEngine n g).entries = s.entries := rfl
@[simp] theorem setEngine_groups (s : State) (n : LineId) (g : Engine) : (s.setEngine n g).groups = s.groups := rfl
@[simp] theorem setEngine_minute (s : State) (n : LineId) (g : Engine) : (s.setEngine n g).minute = s.minute := rfl
@[simp] theorem setEngine_clockValid (s : State) (n : LineId) (g : Engine) :
    (s.setEngine n g).clockValid = s.clockValid := rfl
@[simp] theorem setEngine_seconds (s : State) (n : LineId) (g : Engine) : (s.setEngine n g).seconds = s.seconds := rfl
@[simp] theorem setEngine_rows (s : State) (n : LineId) (g : Engine) : (s.setEngine n g).rows = s.rows := rfl
@[simp] theorem setEngine_blackouts (s : State) (n : LineId) (g : Engine) :
    (s.setEngine n g).blackouts = s.blackouts := rfl
@[simp] theorem setEngine_passTimer (s : State) (n : LineId) (g : Engine) :
    (s.setEngine n g).passTimer = s.passTimer := rfl
@[simp] theorem setEngine_passState (s : State) (n : LineId) (g : Engine) :
    (s.setEngine n g).passState = s.passState := rfl
@[simp] theorem setEngine_plan (s : State) (n : LineId) (g : Engine) : (s.setEngine n g).plan = s.plan := rfl
@[simp] theorem setEngine_criteria (s : State) (n : LineId) (g : Engine) :
    (s.setEngine n g).criteria = s.criteria := rfl
@[simp] theorem setEngine_policy (s : State) (n : LineId) (g : Engine) : (s.setEngine n g).policy = s.policy := rfl
@[simp] theorem setEngine_mains (s : State) (n : LineId) (g : Engine) : (s.setEngine n g).mains = s.mains := rfl
@[simp] theorem setEngine_lines (s : State) (n : LineId) (g : Engine) :
    (s.setEngine n g).lines = s.lines.set n { s.line n with engine := g } := rfl
@[simp] theorem setEngine_settings (s : State) (n : LineId) (g : Engine) :
    (s.setEngine n g).settings = s.settings := rfl
@[simp] theorem setEngine_flags (s : State) (n : LineId) (g : Engine) : (s.setEngine n g).flags = s.flags := rfl
@[simp] theorem setEngine_noticePending (s : State) (n : LineId) (g : Engine) :
    (s.setEngine n g).noticePending = s.noticePending := rfl
@[simp] theorem setEngine_noticeOwed (s : State) (n : LineId) (g : Engine) :
    (s.setEngine n g).noticeOwed = s.noticeOwed := rfl
@[simp] theorem setEngine_noticeNumber (s : State) (n : LineId) (g : Engine) :
    (s.setEngine n g).noticeNumber = s.noticeNumber := rfl
@[simp] theorem setEngine_pending (s : State) (n : LineId) (g : Engine) : (s.setEngine n g).pending = s.pending := rfl
@[simp] theorem setEngine_entry (s : State) (n : LineId) (g : Engine) (j : EntryId) :
    (s.setEngine n g).entry j = s.entry j := rfl
@[simp] theorem setEngine_mainsLine (s : State) (n : LineId) (g : Engine) (k : LineId) :
    (s.setEngine n g).mainsLine k = s.mainsLine k := rfl
@[simp] theorem setEngine_group (s : State) (n : LineId) (g : Engine) (r' : Fin 32) :
    (s.setEngine n g).group r' = s.group r' := rfl
@[simp] theorem setEngine_flag (s : State) (n : LineId) (g : Engine) (f' : EventFlag) :
    (s.setEngine n g).flag f' = s.flag f' := rfl
@[simp] theorem setEngine_inOutage (s : State) (n : LineId) (g : Engine) (k : LineId) :
    (s.setEngine n g).inOutage k = s.inOutage k := rfl

/-! ### joinBacklog -/

@[simp] theorem joinBacklog_strap (s : State) (n : LineId) (f : Frame) : (s.joinBacklog n f).strap = s.strap := rfl
@[simp] theorem joinBacklog_portOpen (s : State) (n : LineId) (f : Frame) :
    (s.joinBacklog n f).portOpen = s.portOpen := rfl
@[simp] theorem joinBacklog_linkUp (s : State) (n : LineId) (f : Frame) : (s.joinBacklog n f).linkUp = s.linkUp := rfl
@[simp] theorem joinBacklog_rx (s : State) (n : LineId) (f : Frame) : (s.joinBacklog n f).rx = s.rx := rfl
@[simp] theorem joinBacklog_tx (s : State) (n : LineId) (f : Frame) : (s.joinBacklog n f).tx = s.tx := rfl
@[simp] theorem joinBacklog_rotation (s : State) (n : LineId) (f : Frame) :
    (s.joinBacklog n f).rotation = s.rotation := rfl
@[simp] theorem joinBacklog_lampWaiting (s : State) (n : LineId) (f : Frame) :
    (s.joinBacklog n f).lampWaiting = s.lampWaiting := rfl
@[simp] theorem joinBacklog_capture (s : State) (n : LineId) (f : Frame) :
    (s.joinBacklog n f).capture = s.capture := rfl
@[simp] theorem joinBacklog_mgmt (s : State) (n : LineId) (f : Frame) : (s.joinBacklog n f).mgmt = s.mgmt := rfl
@[simp] theorem joinBacklog_save (s : State) (n : LineId) (f : Frame) : (s.joinBacklog n f).save = s.save := rfl
@[simp] theorem joinBacklog_flash (s : State) (n : LineId) (f : Frame) : (s.joinBacklog n f).flash = s.flash := rfl
@[simp] theorem joinBacklog_entries (s : State) (n : LineId) (f : Frame) :
    (s.joinBacklog n f).entries = s.entries := rfl
@[simp] theorem joinBacklog_groups (s : State) (n : LineId) (f : Frame) : (s.joinBacklog n f).groups = s.groups := rfl
@[simp] theorem joinBacklog_minute (s : State) (n : LineId) (f : Frame) : (s.joinBacklog n f).minute = s.minute := rfl
@[simp] theorem joinBacklog_clockValid (s : State) (n : LineId) (f : Frame) :
    (s.joinBacklog n f).clockValid = s.clockValid := rfl
@[simp] theorem joinBacklog_seconds (s : State) (n : LineId) (f : Frame) :
    (s.joinBacklog n f).seconds = s.seconds := rfl
@[simp] theorem joinBacklog_rows (s : State) (n : LineId) (f : Frame) : (s.joinBacklog n f).rows = s.rows := rfl
@[simp] theorem joinBacklog_blackouts (s : State) (n : LineId) (f : Frame) :
    (s.joinBacklog n f).blackouts = s.blackouts := rfl
@[simp] theorem joinBacklog_passTimer (s : State) (n : LineId) (f : Frame) :
    (s.joinBacklog n f).passTimer = s.passTimer := rfl
@[simp] theorem joinBacklog_passState (s : State) (n : LineId) (f : Frame) :
    (s.joinBacklog n f).passState = s.passState := rfl
@[simp] theorem joinBacklog_plan (s : State) (n : LineId) (f : Frame) : (s.joinBacklog n f).plan = s.plan := rfl
@[simp] theorem joinBacklog_criteria (s : State) (n : LineId) (f : Frame) :
    (s.joinBacklog n f).criteria = s.criteria := rfl
@[simp] theorem joinBacklog_policy (s : State) (n : LineId) (f : Frame) : (s.joinBacklog n f).policy = s.policy := rfl
@[simp] theorem joinBacklog_mains (s : State) (n : LineId) (f : Frame) : (s.joinBacklog n f).mains = s.mains := rfl
@[simp] theorem joinBacklog_lines (s : State) (n : LineId) (f : Frame) :
    (s.joinBacklog n f).lines = s.lines.set n { s.line n with backlog := (s.line n).backlog ++ [f] } := rfl
@[simp] theorem joinBacklog_settings (s : State) (n : LineId) (f : Frame) :
    (s.joinBacklog n f).settings = s.settings := rfl
@[simp] theorem joinBacklog_flags (s : State) (n : LineId) (f : Frame) : (s.joinBacklog n f).flags = s.flags := rfl
@[simp] theorem joinBacklog_noticePending (s : State) (n : LineId) (f : Frame) :
    (s.joinBacklog n f).noticePending = s.noticePending := rfl
@[simp] theorem joinBacklog_noticeOwed (s : State) (n : LineId) (f : Frame) :
    (s.joinBacklog n f).noticeOwed = s.noticeOwed := rfl
@[simp] theorem joinBacklog_noticeNumber (s : State) (n : LineId) (f : Frame) :
    (s.joinBacklog n f).noticeNumber = s.noticeNumber := rfl
@[simp] theorem joinBacklog_pending (s : State) (n : LineId) (f : Frame) :
    (s.joinBacklog n f).pending = s.pending := rfl
@[simp] theorem joinBacklog_entry (s : State) (n : LineId) (f : Frame) (j : EntryId) :
    (s.joinBacklog n f).entry j = s.entry j := rfl
@[simp] theorem joinBacklog_mainsLine (s : State) (n : LineId) (f : Frame) (k : LineId) :
    (s.joinBacklog n f).mainsLine k = s.mainsLine k := rfl
@[simp] theorem joinBacklog_group (s : State) (n : LineId) (f : Frame) (r' : Fin 32) :
    (s.joinBacklog n f).group r' = s.group r' := rfl
@[simp] theorem joinBacklog_flag (s : State) (n : LineId) (f : Frame) (f' : EventFlag) :
    (s.joinBacklog n f).flag f' = s.flag f' := rfl
@[simp] theorem joinBacklog_inOutage (s : State) (n : LineId) (f : Frame) (k : LineId) :
    (s.joinBacklog n f).inOutage k = s.inOutage k := rfl

/-! ### setMains -/

@[simp] theorem setMains_strap (s : State) (n : LineId) (m : MainsLine) : (s.setMains n m).strap = s.strap := rfl
@[simp] theorem setMains_portOpen (s : State) (n : LineId) (m : MainsLine) :
    (s.setMains n m).portOpen = s.portOpen := rfl
@[simp] theorem setMains_linkUp (s : State) (n : LineId) (m : MainsLine) : (s.setMains n m).linkUp = s.linkUp := rfl
@[simp] theorem setMains_rx (s : State) (n : LineId) (m : MainsLine) : (s.setMains n m).rx = s.rx := rfl
@[simp] theorem setMains_tx (s : State) (n : LineId) (m : MainsLine) : (s.setMains n m).tx = s.tx := rfl
@[simp] theorem setMains_rotation (s : State) (n : LineId) (m : MainsLine) :
    (s.setMains n m).rotation = s.rotation := rfl
@[simp] theorem setMains_lampWaiting (s : State) (n : LineId) (m : MainsLine) :
    (s.setMains n m).lampWaiting = s.lampWaiting := rfl
@[simp] theorem setMains_capture (s : State) (n : LineId) (m : MainsLine) :
    (s.setMains n m).capture = s.capture := rfl
@[simp] theorem setMains_mgmt (s : State) (n : LineId) (m : MainsLine) : (s.setMains n m).mgmt = s.mgmt := rfl
@[simp] theorem setMains_save (s : State) (n : LineId) (m : MainsLine) : (s.setMains n m).save = s.save := rfl
@[simp] theorem setMains_flash (s : State) (n : LineId) (m : MainsLine) : (s.setMains n m).flash = s.flash := rfl
@[simp] theorem setMains_entries (s : State) (n : LineId) (m : MainsLine) :
    (s.setMains n m).entries = s.entries := rfl
@[simp] theorem setMains_groups (s : State) (n : LineId) (m : MainsLine) : (s.setMains n m).groups = s.groups := rfl
@[simp] theorem setMains_minute (s : State) (n : LineId) (m : MainsLine) : (s.setMains n m).minute = s.minute := rfl
@[simp] theorem setMains_clockValid (s : State) (n : LineId) (m : MainsLine) :
    (s.setMains n m).clockValid = s.clockValid := rfl
@[simp] theorem setMains_seconds (s : State) (n : LineId) (m : MainsLine) :
    (s.setMains n m).seconds = s.seconds := rfl
@[simp] theorem setMains_rows (s : State) (n : LineId) (m : MainsLine) : (s.setMains n m).rows = s.rows := rfl
@[simp] theorem setMains_blackouts (s : State) (n : LineId) (m : MainsLine) :
    (s.setMains n m).blackouts = s.blackouts := rfl
@[simp] theorem setMains_passTimer (s : State) (n : LineId) (m : MainsLine) :
    (s.setMains n m).passTimer = s.passTimer := rfl
@[simp] theorem setMains_passState (s : State) (n : LineId) (m : MainsLine) :
    (s.setMains n m).passState = s.passState := rfl
@[simp] theorem setMains_plan (s : State) (n : LineId) (m : MainsLine) : (s.setMains n m).plan = s.plan := rfl
@[simp] theorem setMains_criteria (s : State) (n : LineId) (m : MainsLine) :
    (s.setMains n m).criteria = s.criteria := rfl
@[simp] theorem setMains_policy (s : State) (n : LineId) (m : MainsLine) : (s.setMains n m).policy = s.policy := rfl
@[simp] theorem setMains_mains (s : State) (n : LineId) (m : MainsLine) :
    (s.setMains n m).mains = s.mains.set n m := rfl
@[simp] theorem setMains_lines (s : State) (n : LineId) (m : MainsLine) : (s.setMains n m).lines = s.lines := rfl
@[simp] theorem setMains_settings (s : State) (n : LineId) (m : MainsLine) :
    (s.setMains n m).settings = s.settings := rfl
@[simp] theorem setMains_flags (s : State) (n : LineId) (m : MainsLine) : (s.setMains n m).flags = s.flags := rfl
@[simp] theorem setMains_noticePending (s : State) (n : LineId) (m : MainsLine) :
    (s.setMains n m).noticePending = s.noticePending := rfl
@[simp] theorem setMains_noticeOwed (s : State) (n : LineId) (m : MainsLine) :
    (s.setMains n m).noticeOwed = s.noticeOwed := rfl
@[simp] theorem setMains_noticeNumber (s : State) (n : LineId) (m : MainsLine) :
    (s.setMains n m).noticeNumber = s.noticeNumber := rfl
@[simp] theorem setMains_pending (s : State) (n : LineId) (m : MainsLine) :
    (s.setMains n m).pending = s.pending := rfl
@[simp] theorem setMains_line (s : State) (n : LineId) (m : MainsLine) (k : LineId) :
    (s.setMains n m).line k = s.line k := rfl
@[simp] theorem setMains_entry (s : State) (n : LineId) (m : MainsLine) (j : EntryId) :
    (s.setMains n m).entry j = s.entry j := rfl
@[simp] theorem setMains_group (s : State) (n : LineId) (m : MainsLine) (r' : Fin 32) :
    (s.setMains n m).group r' = s.group r' := rfl
@[simp] theorem setMains_flag (s : State) (n : LineId) (m : MainsLine) (f' : EventFlag) :
    (s.setMains n m).flag f' = s.flag f' := rfl

/-! ### pushTx -/

@[simp] theorem pushTx_strap (s : State) (f : Frame) : (s.pushTx f).strap = s.strap := rfl
@[simp] theorem pushTx_portOpen (s : State) (f : Frame) : (s.pushTx f).portOpen = s.portOpen := rfl
@[simp] theorem pushTx_linkUp (s : State) (f : Frame) : (s.pushTx f).linkUp = s.linkUp := rfl
@[simp] theorem pushTx_rx (s : State) (f : Frame) : (s.pushTx f).rx = s.rx := rfl
@[simp] theorem pushTx_tx (s : State) (f : Frame) : (s.pushTx f).tx = s.tx ++ [f] := rfl
@[simp] theorem pushTx_rotation (s : State) (f : Frame) : (s.pushTx f).rotation = s.rotation := rfl
@[simp] theorem pushTx_lampWaiting (s : State) (f : Frame) : (s.pushTx f).lampWaiting = s.lampWaiting := rfl
@[simp] theorem pushTx_capture (s : State) (f : Frame) : (s.pushTx f).capture = s.capture := rfl
@[simp] theorem pushTx_mgmt (s : State) (f : Frame) : (s.pushTx f).mgmt = s.mgmt := rfl
@[simp] theorem pushTx_save (s : State) (f : Frame) : (s.pushTx f).save = s.save := rfl
@[simp] theorem pushTx_flash (s : State) (f : Frame) : (s.pushTx f).flash = s.flash := rfl
@[simp] theorem pushTx_entries (s : State) (f : Frame) : (s.pushTx f).entries = s.entries := rfl
@[simp] theorem pushTx_groups (s : State) (f : Frame) : (s.pushTx f).groups = s.groups := rfl
@[simp] theorem pushTx_minute (s : State) (f : Frame) : (s.pushTx f).minute = s.minute := rfl
@[simp] theorem pushTx_clockValid (s : State) (f : Frame) : (s.pushTx f).clockValid = s.clockValid := rfl
@[simp] theorem pushTx_seconds (s : State) (f : Frame) : (s.pushTx f).seconds = s.seconds := rfl
@[simp] theorem pushTx_rows (s : State) (f : Frame) : (s.pushTx f).rows = s.rows := rfl
@[simp] theorem pushTx_blackouts (s : State) (f : Frame) : (s.pushTx f).blackouts = s.blackouts := rfl
@[simp] theorem pushTx_passTimer (s : State) (f : Frame) : (s.pushTx f).passTimer = s.passTimer := rfl
@[simp] theorem pushTx_passState (s : State) (f : Frame) : (s.pushTx f).passState = s.passState := rfl
@[simp] theorem pushTx_plan (s : State) (f : Frame) : (s.pushTx f).plan = s.plan := rfl
@[simp] theorem pushTx_criteria (s : State) (f : Frame) : (s.pushTx f).criteria = s.criteria := rfl
@[simp] theorem pushTx_policy (s : State) (f : Frame) : (s.pushTx f).policy = s.policy := rfl
@[simp] theorem pushTx_mains (s : State) (f : Frame) : (s.pushTx f).mains = s.mains := rfl
@[simp] theorem pushTx_lines (s : State) (f : Frame) : (s.pushTx f).lines = s.lines := rfl
@[simp] theorem pushTx_settings (s : State) (f : Frame) : (s.pushTx f).settings = s.settings := rfl
@[simp] theorem pushTx_flags (s : State) (f : Frame) : (s.pushTx f).flags = s.flags := rfl
@[simp] theorem pushTx_noticePending (s : State) (f : Frame) : (s.pushTx f).noticePending = s.noticePending := rfl
@[simp] theorem pushTx_noticeOwed (s : State) (f : Frame) : (s.pushTx f).noticeOwed = s.noticeOwed := rfl
@[simp] theorem pushTx_noticeNumber (s : State) (f : Frame) : (s.pushTx f).noticeNumber = s.noticeNumber := rfl
@[simp] theorem pushTx_pending (s : State) (f : Frame) : (s.pushTx f).pending = s.pending := rfl
@[simp] theorem pushTx_line (s : State) (f : Frame) (k : LineId) :
    (s.pushTx f).line k = s.line k := rfl
@[simp] theorem pushTx_entry (s : State) (f : Frame) (j : EntryId) :
    (s.pushTx f).entry j = s.entry j := rfl
@[simp] theorem pushTx_mainsLine (s : State) (f : Frame) (k : LineId) :
    (s.pushTx f).mainsLine k = s.mainsLine k := rfl
@[simp] theorem pushTx_group (s : State) (f : Frame) (r' : Fin 32) :
    (s.pushTx f).group r' = s.group r' := rfl
@[simp] theorem pushTx_flag (s : State) (f : Frame) (f' : EventFlag) :
    (s.pushTx f).flag f' = s.flag f' := rfl
@[simp] theorem pushTx_inOutage (s : State) (f : Frame) (k : LineId) :
    (s.pushTx f).inOutage k = s.inOutage k := rfl

/-! ### endPass -/

@[simp] theorem endPass_strap (s : State) : (s.endPass).strap = s.strap := rfl
@[simp] theorem endPass_portOpen (s : State) : (s.endPass).portOpen = s.portOpen := rfl
@[simp] theorem endPass_linkUp (s : State) : (s.endPass).linkUp = s.linkUp := rfl
@[simp] theorem endPass_rx (s : State) : (s.endPass).rx = s.rx := rfl
@[simp] theorem endPass_tx (s : State) : (s.endPass).tx = s.tx := rfl
@[simp] theorem endPass_rotation (s : State) : (s.endPass).rotation = s.rotation := rfl
@[simp] theorem endPass_lampWaiting (s : State) : (s.endPass).lampWaiting = s.lampWaiting := rfl
@[simp] theorem endPass_capture (s : State) : (s.endPass).capture = s.capture := rfl
@[simp] theorem endPass_mgmt (s : State) : (s.endPass).mgmt = s.mgmt := rfl
@[simp] theorem endPass_save (s : State) : (s.endPass).save = s.save := rfl
@[simp] theorem endPass_flash (s : State) : (s.endPass).flash = s.flash := rfl
@[simp] theorem endPass_entries (s : State) : (s.endPass).entries = s.entries := rfl
@[simp] theorem endPass_groups (s : State) : (s.endPass).groups = s.groups := rfl
@[simp] theorem endPass_minute (s : State) : (s.endPass).minute = s.minute := rfl
@[simp] theorem endPass_clockValid (s : State) : (s.endPass).clockValid = s.clockValid := rfl
@[simp] theorem endPass_seconds (s : State) : (s.endPass).seconds = s.seconds := rfl
@[simp] theorem endPass_rows (s : State) : (s.endPass).rows = s.rows := rfl
@[simp] theorem endPass_blackouts (s : State) : (s.endPass).blackouts = s.blackouts := rfl
@[simp] theorem endPass_passTimer (s : State) : (s.endPass).passTimer = s.passTimer := rfl
@[simp] theorem endPass_passState (s : State) : (s.endPass).passState = .idle := rfl
@[simp] theorem endPass_plan (s : State) : (s.endPass).plan = [] := rfl
@[simp] theorem endPass_criteria (s : State) : (s.endPass).criteria = s.criteria := rfl
@[simp] theorem endPass_policy (s : State) : (s.endPass).policy = s.policy := rfl
@[simp] theorem endPass_mains (s : State) : (s.endPass).mains = s.mains := rfl
@[simp] theorem endPass_lines (s : State) : (s.endPass).lines = s.lines := rfl
@[simp] theorem endPass_settings (s : State) : (s.endPass).settings = s.settings := rfl
@[simp] theorem endPass_flags (s : State) : (s.endPass).flags = s.flags := rfl
@[simp] theorem endPass_noticePending (s : State) : (s.endPass).noticePending = s.noticePending := rfl
@[simp] theorem endPass_noticeOwed (s : State) : (s.endPass).noticeOwed = s.noticeOwed := rfl
@[simp] theorem endPass_noticeNumber (s : State) : (s.endPass).noticeNumber = s.noticeNumber := rfl
@[simp] theorem endPass_pending (s : State) : (s.endPass).pending = s.pending := rfl
@[simp] theorem endPass_line (s : State) (k : LineId) :
    (s.endPass).line k = s.line k := rfl
@[simp] theorem endPass_entry (s : State) (j : EntryId) :
    (s.endPass).entry j = s.entry j := rfl
@[simp] theorem endPass_mainsLine (s : State) (k : LineId) :
    (s.endPass).mainsLine k = s.mainsLine k := rfl
@[simp] theorem endPass_group (s : State) (r' : Fin 32) :
    (s.endPass).group r' = s.group r' := rfl
@[simp] theorem endPass_flag (s : State) (f' : EventFlag) :
    (s.endPass).flag f' = s.flag f' := rfl
@[simp] theorem endPass_inOutage (s : State) (k : LineId) :
    (s.endPass).inOutage k = s.inOutage k := rfl

/-! ### clearFlags -/

@[simp] theorem clearFlags_strap (s : State) (set : BitVec 14) : (s.clearFlags set).strap = s.strap := rfl
@[simp] theorem clearFlags_portOpen (s : State) (set : BitVec 14) : (s.clearFlags set).portOpen = s.portOpen := rfl
@[simp] theorem clearFlags_linkUp (s : State) (set : BitVec 14) : (s.clearFlags set).linkUp = s.linkUp := rfl
@[simp] theorem clearFlags_rx (s : State) (set : BitVec 14) : (s.clearFlags set).rx = s.rx := rfl
@[simp] theorem clearFlags_tx (s : State) (set : BitVec 14) : (s.clearFlags set).tx = s.tx := rfl
@[simp] theorem clearFlags_rotation (s : State) (set : BitVec 14) : (s.clearFlags set).rotation = s.rotation := rfl
@[simp] theorem clearFlags_lampWaiting (s : State) (set : BitVec 14) :
    (s.clearFlags set).lampWaiting = s.lampWaiting := rfl
@[simp] theorem clearFlags_capture (s : State) (set : BitVec 14) : (s.clearFlags set).capture = s.capture := rfl
@[simp] theorem clearFlags_mgmt (s : State) (set : BitVec 14) : (s.clearFlags set).mgmt = s.mgmt := rfl
@[simp] theorem clearFlags_save (s : State) (set : BitVec 14) : (s.clearFlags set).save = s.save := rfl
@[simp] theorem clearFlags_flash (s : State) (set : BitVec 14) : (s.clearFlags set).flash = s.flash := rfl
@[simp] theorem clearFlags_entries (s : State) (set : BitVec 14) : (s.clearFlags set).entries = s.entries := rfl
@[simp] theorem clearFlags_groups (s : State) (set : BitVec 14) : (s.clearFlags set).groups = s.groups := rfl
@[simp] theorem clearFlags_minute (s : State) (set : BitVec 14) : (s.clearFlags set).minute = s.minute := rfl
@[simp] theorem clearFlags_clockValid (s : State) (set : BitVec 14) :
    (s.clearFlags set).clockValid = s.clockValid := rfl
@[simp] theorem clearFlags_seconds (s : State) (set : BitVec 14) : (s.clearFlags set).seconds = s.seconds := rfl
@[simp] theorem clearFlags_rows (s : State) (set : BitVec 14) : (s.clearFlags set).rows = s.rows := rfl
@[simp] theorem clearFlags_blackouts (s : State) (set : BitVec 14) : (s.clearFlags set).blackouts = s.blackouts := rfl
@[simp] theorem clearFlags_passTimer (s : State) (set : BitVec 14) : (s.clearFlags set).passTimer = s.passTimer := rfl
@[simp] theorem clearFlags_passState (s : State) (set : BitVec 14) : (s.clearFlags set).passState = s.passState := rfl
@[simp] theorem clearFlags_plan (s : State) (set : BitVec 14) : (s.clearFlags set).plan = s.plan := rfl
@[simp] theorem clearFlags_criteria (s : State) (set : BitVec 14) : (s.clearFlags set).criteria = s.criteria := rfl
@[simp] theorem clearFlags_policy (s : State) (set : BitVec 14) : (s.clearFlags set).policy = s.policy := rfl
@[simp] theorem clearFlags_mains (s : State) (set : BitVec 14) : (s.clearFlags set).mains = s.mains := rfl
@[simp] theorem clearFlags_lines (s : State) (set : BitVec 14) : (s.clearFlags set).lines = s.lines := rfl
@[simp] theorem clearFlags_settings (s : State) (set : BitVec 14) : (s.clearFlags set).settings = s.settings := rfl
@[simp] theorem clearFlags_flags (s : State) (set : BitVec 14) : (s.clearFlags set).flags = s.flags &&& ~~~ set := rfl
@[simp] theorem clearFlags_noticePending (s : State) (set : BitVec 14) :
    (s.clearFlags set).noticePending = s.noticePending := rfl
@[simp] theorem clearFlags_noticeOwed (s : State) (set : BitVec 14) :
    (s.clearFlags set).noticeOwed = s.noticeOwed := rfl
@[simp] theorem clearFlags_noticeNumber (s : State) (set : BitVec 14) :
    (s.clearFlags set).noticeNumber = s.noticeNumber := rfl
@[simp] theorem clearFlags_pending (s : State) (set : BitVec 14) : (s.clearFlags set).pending = s.pending := rfl
@[simp] theorem clearFlags_line (s : State) (set : BitVec 14) (k : LineId) :
    (s.clearFlags set).line k = s.line k := rfl
@[simp] theorem clearFlags_entry (s : State) (set : BitVec 14) (j : EntryId) :
    (s.clearFlags set).entry j = s.entry j := rfl
@[simp] theorem clearFlags_mainsLine (s : State) (set : BitVec 14) (k : LineId) :
    (s.clearFlags set).mainsLine k = s.mainsLine k := rfl
@[simp] theorem clearFlags_group (s : State) (set : BitVec 14) (r' : Fin 32) :
    (s.clearFlags set).group r' = s.group r' := rfl
@[simp] theorem clearFlags_inOutage (s : State) (set : BitVec 14) (k : LineId) :
    (s.clearFlags set).inOutage k = s.inOutage k := rfl

/-! ### Reading back -/

theorem setEntry_entry (s : State) (i j : EntryId) (e : Entry) :
    (s.setEntry i e).entry j = if i = j then e else s.entry j := by
  simp only [State.entry, State.setEntry, Fin.getElem_fin, Vector.getElem_set, Fin.ext_iff]

@[simp] theorem setEntry_entry_self (s : State) (i : EntryId) (e : Entry) : (s.setEntry i e).entry i = e := by
  simp [setEntry_entry]

theorem setEntry_entry_ne (s : State) {i j : EntryId} (e : Entry) (h : i ≠ j) :
    (s.setEntry i e).entry j = s.entry j := by
  simp [setEntry_entry, h]

theorem setEntryState_entry (s : State) (i j : EntryId) (st : EntryState) :
    (s.setEntryState i st).entry j = if i = j then { s.entry i with state := st } else s.entry j :=
  setEntry_entry s i j _

@[simp] theorem setEntryState_entry_self (s : State) (i : EntryId) (st : EntryState) :
    (s.setEntryState i st).entry i = { s.entry i with state := st } := by
  simp [setEntryState_entry]

theorem setBlock_entry (s : State) (i j : EntryId) (r : BlockReason) :
    (s.setBlock i r).entry j = if i = j then { s.entry i with lastBlock := some r } else s.entry j :=
  setEntry_entry s i j _

@[simp] theorem setBlock_entry_self (s : State) (i : EntryId) (r : BlockReason) :
    (s.setBlock i r).entry i = { s.entry i with lastBlock := some r } := by
  simp [setBlock_entry]

theorem takeBack_entry (s : State) (i j : EntryId) (r : BlockReason) :
    (s.takeBack i r).entry j = if i = j then { s.entry i with state := .ready, lastBlock := some r } else s.entry j :=
  setEntry_entry s i j _

@[simp] theorem takeBack_entry_self (s : State) (i : EntryId) (r : BlockReason) :
    (s.takeBack i r).entry i = { s.entry i with state := .ready, lastBlock := some r } := by
  simp [takeBack_entry]

theorem setLine_line (s : State) (n m : LineId) (l : LineEngine) :
    (s.setLine n l).line m = if n = m then l else s.line m := by
  simp only [State.line, State.setLine, Fin.getElem_fin, Vector.getElem_set, Fin.ext_iff]

@[simp] theorem setLine_line_self (s : State) (n : LineId) (l : LineEngine) : (s.setLine n l).line n = l := by
  simp [setLine_line]

theorem setLine_line_ne (s : State) {n m : LineId} (l : LineEngine) (h : n ≠ m) :
    (s.setLine n l).line m = s.line m := by
  simp [setLine_line, h]

theorem setEngine_line (s : State) (n m : LineId) (g : Engine) :
    (s.setEngine n g).line m = if n = m then { s.line n with engine := g } else s.line m :=
  setLine_line s n m _

@[simp] theorem setEngine_line_self (s : State) (n : LineId) (g : Engine) :
    (s.setEngine n g).line n = { s.line n with engine := g } := by
  simp [setEngine_line]

theorem joinBacklog_line (s : State) (n m : LineId) (f : Frame) :
    (s.joinBacklog n f).line m =
      if n = m then { s.line n with backlog := (s.line n).backlog ++ [f] } else s.line m :=
  setLine_line s n m _

@[simp] theorem joinBacklog_line_self (s : State) (n : LineId) (f : Frame) :
    (s.joinBacklog n f).line n = { s.line n with backlog := (s.line n).backlog ++ [f] } := by
  simp [joinBacklog_line]

theorem setMains_mainsLine (s : State) (n k : LineId) (m : MainsLine) :
    (s.setMains n m).mainsLine k = if n = k then m else s.mainsLine k := by
  simp only [State.mainsLine, State.setMains, Fin.getElem_fin, Vector.getElem_set, Fin.ext_iff]

@[simp] theorem setMains_mainsLine_self (s : State) (n : LineId) (m : MainsLine) :
    (s.setMains n m).mainsLine n = m := by
  simp [setMains_mainsLine]

theorem setMains_inOutage_ne (s : State) {n k : LineId} (m : MainsLine) (h : n ≠ k) :
    (s.setMains n m).inOutage k = s.inOutage k := by
  simp [State.inOutage, setMains_mainsLine, h]

/-! ### Writing twice, and writing what stands -/

@[simp] theorem setEntry_setEntry (s : State) (i : EntryId) (e f : Entry) :
    (s.setEntry i e).setEntry i f = s.setEntry i f := by
  simp [State.setEntry]

@[simp] theorem setLine_setLine (s : State) (n : LineId) (l k : LineEngine) :
    (s.setLine n l).setLine n k = s.setLine n k := by
  simp [State.setLine]

@[simp] theorem setEntry_same (s : State) (i : EntryId) : s.setEntry i (s.entry i) = s := by
  simp [State.setEntry, State.entry]

@[simp] theorem setLine_same (s : State) (n : LineId) : s.setLine n (s.line n) = s := by
  simp [State.setLine, State.line]

/-- Two states with the same entry vector read the same entries. -/
theorem entry_congr {s t : State} (h : t.entries = s.entries) (i : EntryId) : t.entry i = s.entry i := by
  simp [State.entry, h]

/-- Two states with the same line vector read the same lines. -/
theorem line_congr {s t : State} (h : t.lines = s.lines) (n : LineId) : t.line n = s.line n := by
  simp [State.line, h]

/-- Two states that read the same entries have the same entry vector. -/
theorem entries_ext {s t : State} (h : ∀ i, t.entry i = s.entry i) : t.entries = s.entries := by
  apply Vector.ext
  intro i hi
  exact h ⟨i, hi⟩

/-- Two states that read the same lines have the same line vector. -/
theorem lines_ext {s t : State} (h : ∀ n, t.line n = s.line n) : t.lines = s.lines := by
  apply Vector.ext
  intro n hn
  exact h ⟨n, hn⟩

end Sys2Proof.Laws
end

