-- ==== Sys2Proof/Laws/Kept.lean ====
section
/-! SUPPORT. What the work on lines and tests never touches: one relation, and one lemma for each shared operation that
says it keeps it. -/

namespace Sys2Proof.Laws

open Sys2Proof.Machine Sys2Proof.Machine.Safety

/-- `t` differs from `s` at most in what tests and line work change: the changing parts of entries and lines, the
transmit queue, the capture, the flags and the two notice marks. -/
structure Kept (s t : State) : Prop where
  strap        : t.strap = s.strap
  portOpen     : t.portOpen = s.portOpen
  linkUp       : t.linkUp = s.linkUp
  rx           : t.rx = s.rx
  rotation     : t.rotation = s.rotation
  lampWaiting  : t.lampWaiting = s.lampWaiting
  mgmt         : t.mgmt = s.mgmt
  save         : t.save = s.save
  flash        : t.flash = s.flash
  groups       : t.groups = s.groups
  minute       : t.minute = s.minute
  clockValid   : t.clockValid = s.clockValid
  seconds      : t.seconds = s.seconds
  rows         : t.rows = s.rows
  blackouts    : t.blackouts = s.blackouts
  passTimer    : t.passTimer = s.passTimer
  passState    : t.passState = s.passState
  plan         : t.plan = s.plan
  criteria     : t.criteria = s.criteria
  policy       : t.policy = s.policy
  settings     : t.settings = s.settings
  noticeNumber : t.noticeNumber = s.noticeNumber
  pending      : t.pending = s.pending
  mains        : t.mains = s.mains
  map          : SameMap s t
  lineSettings : ∀ n : LineId, (t.line n).settings = (s.line n).settings

theorem sameIdentity_refl (e : Entry) : SameIdentity e e := ⟨rfl, rfl, rfl, rfl, rfl, rfl, rfl, rfl, rfl⟩

theorem sameIdentity_trans {e f g : Entry} (h : SameIdentity e f) (k : SameIdentity f g) : SameIdentity e g := by
  obtain ⟨h1, h2, h3, h4, h5, h6, h7, h8, h9⟩ := h
  obtain ⟨k1, k2, k3, k4, k5, k6, k7, k8, k9⟩ := k
  exact ⟨k1.trans h1, k2.trans h2, k3.trans h3, k4.trans h4, k5.trans h5, k6.trans h6, k7.trans h7, k8.trans h8,
    k9.trans h9⟩

theorem Kept.refl (s : State) : Kept s s := by
  constructor <;> first | rfl | exact fun _ => sameIdentity_refl _ | exact fun _ => rfl

theorem Kept.trans {s t u : State} (h : Kept s t) (k : Kept t u) : Kept s u where
  strap := k.strap.trans h.strap
  portOpen := k.portOpen.trans h.portOpen
  linkUp := k.linkUp.trans h.linkUp
  rx := k.rx.trans h.rx
  rotation := k.rotation.trans h.rotation
  lampWaiting := k.lampWaiting.trans h.lampWaiting
  mgmt := k.mgmt.trans h.mgmt
  save := k.save.trans h.save
  flash := k.flash.trans h.flash
  groups := k.groups.trans h.groups
  minute := k.minute.trans h.minute
  clockValid := k.clockValid.trans h.clockValid
  seconds := k.seconds.trans h.seconds
  rows := k.rows.trans h.rows
  blackouts := k.blackouts.trans h.blackouts
  passTimer := k.passTimer.trans h.passTimer
  passState := k.passState.trans h.passState
  plan := k.plan.trans h.plan
  criteria := k.criteria.trans h.criteria
  policy := k.policy.trans h.policy
  settings := k.settings.trans h.settings
  noticeNumber := k.noticeNumber.trans h.noticeNumber
  pending := k.pending.trans h.pending
  mains := k.mains.trans h.mains
  map := fun i => sameIdentity_trans (h.map i) (k.map i)
  lineSettings := fun n => (k.lineSettings n).trans (h.lineSettings n)

/-! ### The primitive updates -/

/-- An entry may change in everything but its identity. -/
theorem kept_setEntry (s : State) (i : EntryId) (e : Entry) (h : SameIdentity (s.entry i) e) :
    Kept s (s.setEntry i e) where
  strap := rfl
  portOpen := rfl
  linkUp := rfl
  rx := rfl
  rotation := rfl
  lampWaiting := rfl
  mgmt := rfl
  save := rfl
  flash := rfl
  groups := rfl
  minute := rfl
  clockValid := rfl
  seconds := rfl
  rows := rfl
  blackouts := rfl
  passTimer := rfl
  passState := rfl
  plan := rfl
  criteria := rfl
  policy := rfl
  settings := rfl
  noticeNumber := rfl
  pending := rfl
  mains := rfl
  lineSettings := fun _ => rfl
  map := fun j => by
    rw [setEntry_entry]
    split
    · next hij => exact hij ▸ h
    · exact sameIdentity_refl _

theorem kept_setEntryState (s : State) (i : EntryId) (st : EntryState) : Kept s (s.setEntryState i st) :=
  kept_setEntry s i _ (sameIdentity_refl _)

theorem kept_setBlock (s : State) (i : EntryId) (r : BlockReason) : Kept s (s.setBlock i r) :=
  kept_setEntry s i _ (sameIdentity_refl _)

theorem kept_takeBack (s : State) (i : EntryId) (r : BlockReason) : Kept s (s.takeBack i r) :=
  kept_setEntry s i _ (sameIdentity_refl _)

/-- A line may change in everything but its settings. -/
theorem kept_setLine (s : State) (n : LineId) (l : LineEngine) (h : l.settings = (s.line n).settings) :
    Kept s (s.setLine n l) where
  strap := rfl
  portOpen := rfl
  linkUp := rfl
  rx := rfl
  rotation := rfl
  lampWaiting := rfl
  mgmt := rfl
  save := rfl
  flash := rfl
  groups := rfl
  minute := rfl
  clockValid := rfl
  seconds := rfl
  rows := rfl
  blackouts := rfl
  passTimer := rfl
  passState := rfl
  plan := rfl
  criteria := rfl
  policy := rfl
  settings := rfl
  noticeNumber := rfl
  pending := rfl
  mains := rfl
  map := fun _ => sameIdentity_refl _
  lineSettings := fun m => by
    rw [setLine_line]
    split
    · next hnm => rw [h, hnm]
    · rfl

theorem kept_setEngine (s : State) (n : LineId) (g : Engine) : Kept s (s.setEngine n g) := kept_setLine s n _ (by rfl)

theorem kept_joinBacklog (s : State) (n : LineId) (f : Frame) : Kept s (s.joinBacklog n f) := kept_setLine s n _ (by rfl)

theorem kept_pushTx (s : State) (f : Frame) : Kept s (s.pushTx f) := by
  constructor <;> first | rfl | exact fun _ => sameIdentity_refl _ | exact fun _ => rfl

theorem kept_noteRise (s : State) (f : EventFlag) : Kept s (s.noteRise f) := by
  unfold State.noteRise
  split
  · exact .refl s
  split
  · exact .refl s
  split
  · exact .refl s
  split <;> constructor <;> first | rfl | exact fun _ => sameIdentity_refl _ | exact fun _ => rfl

theorem kept_raise (s : State) (f : EventFlag) : Kept s (s.raise f) := by
  unfold State.raise
  split
  · exact .refl s
  · refine Kept.trans ?_ (kept_noteRise _ f)
    constructor <;> first | rfl | exact fun _ => sameIdentity_refl _ | exact fun _ => rfl

theorem kept_raiseIf (s : State) (f : Option EventFlag) : Kept s (s.raiseIf f) := by
  cases f with
  | none => exact .refl s
  | some f => exact kept_raise s f

/-! ### The folds -/

theorem kept_foldl {α : Type} (f : State → α → State) (h : ∀ s a, Kept s (f s a)) (l : List α) (s : State) :
    Kept s (l.foldl f s) := by
  induction l generalizing s with
  | nil => exact .refl s
  | cons a l ih => exact (h s a).trans (ih (f s a))

theorem kept_forEntries (f : EntryId → State → State) (h : ∀ i s, Kept s (f i s)) (s : State) :
    Kept s (forEntries f s) := kept_foldl _ (fun t i => h i t) _ s

theorem kept_forLines (f : LineId → State → State) (h : ∀ n s, Kept s (f n s)) (s : State) :
    Kept s (forLines f s) := kept_foldl _ (fun t n => h n t) _ s

/-! ### The Capture Unit -/

theorem kept_captureOffer (s : State) (o : CaptureOrigin) (r : ReqName) (a : Argument) (i : EntryId) (n : LineId)
    (node : Nat) : Kept s (s.captureOffer o r a i n node) := by
  unfold State.captureOffer
  split
  · constructor <;> first | rfl | exact fun _ => sameIdentity_refl _ | exact fun _ => rfl
  · exact .refl s

theorem kept_captureHold (s : State) (i : EntryId) : Kept s (s.captureHold i) := by
  unfold State.captureHold
  split
  · exact kept_setEntry s i _ (sameIdentity_refl _)
  · exact .refl s

theorem kept_captureEnd (s : State) (m : Option Nat) (i : EntryId) (a : CaptureAnswer) :
    Kept s (s.captureEnd m i a) := by
  unfold State.captureEnd
  split
  · refine Kept.trans (t := { s with capture := { s.capture with state := s.capture.state.completed a } }) ?_
      ((kept_raise _ _).trans (kept_captureHold _ i))
    constructor <;> first | rfl | exact fun _ => sameIdentity_refl _ | exact fun _ => rfl
  · exact .refl s

theorem kept_captureEndAll (s : State) (l : List (Option Nat × EntryId)) (a : CaptureAnswer) :
    Kept s (s.captureEndAll l a) :=
  kept_foldl (fun (t : State) (r : Option Nat × EntryId) => t.captureEnd r.1 r.2 a)
    (fun t r => kept_captureEnd t r.1 r.2 a) l s

/-! ### The clients and the arbiter -/

theorem kept_joinControl (s : State) (n : LineId) (k : ControlKind) (i : EntryId) (node : Nat) :
    Kept s (s.joinControl n k i node) := (kept_captureOffer s _ _ _ _ _ _).trans (kept_setLine _ n _ (by rfl))

theorem kept_joinPass (s : State) (n : LineId) (r : PassRequest) : Kept s (s.joinPass n r) :=
  (kept_captureOffer s _ _ _ _ _ _).trans (kept_setLine _ n _ (by rfl))

theorem kept_joinPoll (s : State) (i : EntryId) : Kept s (s.joinPoll i) := by
  unfold State.joinPoll
  dsimp only
  split
  · exact .refl s
  · exact (kept_captureOffer s _ _ _ _ _ _).trans (kept_setLine _ _ _ (by rfl))

theorem kept_withdrawPoll (s : State) (i : EntryId) : Kept s (s.withdrawPoll i) :=
  (kept_setLine s _ _ (by rfl)).trans (kept_captureEndAll _ _ _)

theorem kept_removeControl (s : State) (n : LineId) (p : ControlRequest → Bool) (a : CaptureAnswer) :
    Kept s (s.removeControl n p a) := (kept_setLine s _ _ (by rfl)).trans (kept_captureEndAll _ _ _)

theorem kept_placeStopsUpTo (k : Nat) (n : LineId) (s : State) : Kept s (s.placeStopsUpTo k n) := by
  induction k generalizing s with
  | zero => exact .refl s
  | succ k ih =>
    unfold State.placeStopsUpTo
    split
    · split
      · exact (kept_joinControl s n _ _ _).trans (ih _)
      · exact .refl s
    · exact .refl s

theorem kept_placeStops (s : State) (n : LineId) : Kept s (s.placeStops n) := kept_placeStopsUpTo 4 n s

theorem kept_markStartSent (s : State) (i : EntryId) (r : ReqName) : Kept s (s.markStartSent i r) := by
  unfold State.markStartSent
  split
  · exact kept_setEntryState s i _
  · exact .refl s

theorem kept_beginExchange (s : State) (n : LineId) (c : Client) (w : Work) (node : Nat) :
    Kept s (s.beginExchange n c w node) := (kept_setLine s n _ (by rfl)).trans (kept_markStartSent _ _ _)

theorem kept_grantTo (s : State) (n : LineId) (c : Client) : Kept s (s.grantTo n c) := by
  unfold State.grantTo
  dsimp only
  split <;> split <;>
    first | exact .refl s | exact (kept_setLine s n _ (by rfl)).trans (kept_beginExchange _ _ _ _ _)

theorem kept_grant (s : State) (n : LineId) : Kept s (s.grant n) := by
  unfold State.grant
  split
  · split
    · exact kept_grantTo s n _
    · exact .refl s
  · exact .refl s

theorem kept_settleLine (s : State) (n : LineId) : Kept s (s.settleLine n) :=
  ((kept_placeStops s n).trans (kept_grant _ n)).trans (kept_placeStops _ n)

theorem kept_settleLines (s : State) : Kept s s.settleLines := kept_forLines _ (fun n t => kept_settleLine t n) s

/-! ### The Test Monitor -/

theorem kept_verdictMove (s : State) (i : EntryId) (k : Kind) (v : Verdict) (e : Nat) :
    Kept s (s.verdictMove i k v e) := by
  unfold State.verdictMove
  split
  · exact (kept_setEntryState s i _).trans (kept_raise _ _)
  · exact kept_setEntryState s i _

theorem kept_recordVerdict (s : State) (i : EntryId) (v : Verdict) (e : Nat) : Kept s (s.recordVerdict i v e) := by
  unfold State.recordVerdict
  split
  · exact .refl s
  · exact ((((kept_setEntry s i _ (by exact sameIdentity_refl _)).trans (kept_raiseIf _ _)).trans
      (kept_withdrawPoll _ _)).trans (kept_removeControl _ _ _ _)).trans (kept_verdictMove _ _ _ _ _)

theorem kept_acceptStart (s : State) (i : EntryId) (t : CurrentTest) : Kept s (s.acceptStart i t) :=
  kept_setEntry s i _ (sameIdentity_refl _)

theorem kept_failStart (s : State) (i : EntryId) (t : CurrentTest) (v : Verdict) : Kept s (s.failStart i t v) := by
  unfold State.failStart
  dsimp only
  split
  · exact (((kept_setEntry s i _ (by exact sameIdentity_refl _)).trans (kept_raiseIf _ _)).trans
      (kept_setEntryState _ i _)).trans (kept_raise _ _)
  · exact ((kept_setEntry s i _ (by exact sameIdentity_refl _)).trans (kept_raiseIf _ _)).trans (kept_setEntryState _ i _)

theorem kept_startEnd (s : State) (i : EntryId) (t : CurrentTest) (e : ExchangeEnd) : Kept s (s.startEnd i t e) := by
  unfold State.startEnd
  split <;> first
    | exact kept_acceptStart s i t
    | exact kept_failStart s i t _
    | exact kept_takeBack s i _

theorem kept_toEnding (s : State) (i : EntryId) (t : CurrentTest) : Kept s (s.toEnding i t) :=
  (kept_setEntryState s i _).trans (kept_withdrawPoll _ i)

theorem kept_consumeTesting (s : State) (i : EntryId) (t : CurrentTest) (r : TestReport) :
    Kept s (s.consumeTesting i t r) := by
  refine (kept_setEntryState s i (.testing { t with missed := 0 })).trans ?_
  unfold State.consumeTesting
  dsimp only
  split
  · exact kept_recordVerdict _ _ _ _
  split
  · exact kept_recordVerdict _ _ _ _
  split
  · split
    · exact .refl _
    · exact kept_toEnding _ _ _
  · exact kept_recordVerdict _ _ _ _

theorem kept_consumeEnding (s : State) (i : EntryId) (t : CurrentTest) (r : TestReport) :
    Kept s (s.consumeEnding i t r) := by
  refine (kept_setEntryState s i (.ending { t with missed := 0 })).trans ?_
  unfold State.consumeEnding
  dsimp only
  split
  · exact kept_recordVerdict _ _ _ _
  split
  · exact kept_recordVerdict _ _ _ _
  · exact .refl _

theorem kept_missPoll (s : State) (i : EntryId) (t : CurrentTest) : Kept s (s.missPoll i t) := by
  refine (kept_setEntryState s i (.testing { t with missed := t.missed + 1 })).trans ?_
  unfold State.missPoll
  dsimp only
  split
  · exact kept_recordVerdict _ _ _ _
  · exact .refl _

theorem kept_monitorEnd (s : State) (n : LineId) (node : Nat) (name : ReqName) (poll : Bool) (e : ExchangeEnd) :
    Kept s (s.monitorEnd n node name poll e) := by
  unfold State.monitorEnd State.endForPending State.endForTesting State.endForEnding
  repeat' split
  all_goals first
    | exact .refl s
    | exact kept_startEnd s _ _ _
    | exact kept_consumeTesting s _ _ _
    | exact kept_consumeEnding s _ _ _
    | exact kept_missPoll s _ _
    | exact kept_joinPoll s _
    | exact kept_recordVerdict s _ _ _

theorem kept_remainingOut (s : State) (i : EntryId) (t : CurrentTest) : Kept s (s.remainingOut i t) := by
  unfold State.remainingOut
  dsimp only
  split
  · exact (kept_setEntryState s i _).trans (kept_recordVerdict _ _ _ _)
  · exact kept_toEnding s i _

theorem kept_minuteEntry (i : EntryId) (s : State) : Kept s (s.minuteEntry i) := by
  unfold State.minuteEntry
  repeat' split
  all_goals first | exact .refl s | exact kept_remainingOut s _ _ | exact kept_setEntryState s _ _

theorem kept_pollDue (s : State) (i : EntryId) : Kept s (s.pollDue i) := by
  unfold State.pollDue
  split
  · exact (kept_setEntryState s i _).trans (kept_joinPoll _ i)
  · exact .refl s

theorem kept_pollEnd (s : State) (i : EntryId) : Kept s (s.pollEnd i) :=
  (kept_pollDue s i).trans (kept_settleLine _ _)

theorem kept_pollSecond (i : EntryId) (s : State) : Kept s (s.pollSecond i) := by
  unfold State.pollSecond
  split
  · split
    · exact kept_pollEnd s i
    · exact kept_setEntryState s i _
  · exact .refl s

theorem sameIdentity_afterReset (e : Entry) (r : Nat) : SameIdentity e (e.afterReset r) := by
  unfold Entry.afterReset
  repeat' split
  all_goals exact sameIdentity_refl e

theorem kept_resetEntry (i : EntryId) (s : State) : Kept s (s.resetEntry i) := by
  unfold State.resetEntry
  split
  · exact kept_setEntry s i _ (sameIdentity_afterReset _ _)
  · exact .refl s

/-! ### The end of an exchange and the line supply -/

theorem kept_passAnswerOut (s : State) (n : LineId) (f : Frame) : Kept s (s.passAnswerOut n f) := by
  unfold State.passAnswerOut
  split
  · exact (kept_pushTx s f).trans (kept_setEngine _ n _)
  · exact (kept_joinBacklog s n f).trans (kept_setEngine _ n _)

theorem kept_touch (s : State) (n : LineId) (r : PassRequest) (e : ExchangeEnd) : Kept s (s.touch n r e) := by
  unfold State.touch
  repeat' split
  all_goals first | exact .refl s | exact kept_setEntry s _ _ (sameIdentity_refl _)

theorem kept_clientEnd (s : State) (n : LineId) (w : Work) (e : ExchangeEnd) : Kept s (s.clientEnd n w e) := by
  unfold State.clientEnd
  dsimp only
  repeat' split
  all_goals first
    | exact .refl s
    | exact (kept_touch s n _ _).trans (kept_joinBacklog _ n _)
    | exact (kept_touch s n _ _).trans (kept_passAnswerOut _ n _)
    | exact kept_joinControl s n _ _ _

theorem kept_handEnd (s : State) (n : LineId) (x : Exchange) (e : ExchangeEnd) : Kept s (s.handEnd n x e) :=
  ((kept_monitorEnd s _ _ _ _ _).trans (kept_captureEnd _ _ _ _)).trans (kept_clientEnd _ _ _ _)

theorem kept_endExchange (s : State) (n : LineId) (x : Exchange) (e : ExchangeEnd) : Kept s (s.endExchange n x e) :=
  (kept_setEngine s n _).trans (kept_handEnd _ _ _ _)

theorem kept_attemptEnd (s : State) (n : LineId) (x : Exchange) (bad : Bool) : Kept s (s.attemptEnd n x bad) := by
  unfold State.attemptEnd
  dsimp only
  split
  · exact kept_setEngine s n _
  · exact kept_endExchange s n _ _

theorem kept_takeBackUnsent (s : State) (i : EntryId) (r : BlockReason) : Kept s (s.takeBackUnsent i r) := by
  unfold State.takeBackUnsent
  repeat' split
  all_goals first | exact .refl s | exact kept_takeBack s _ _

theorem kept_dropPassDown (n : LineId) (s : State) (r : PassRequest) : Kept s (s.dropPassDown n r) := by
  unfold State.dropPassDown
  dsimp only
  split
  · exact ((kept_joinBacklog s n _).trans (kept_takeBackUnsent _ _ _)).trans (kept_captureEnd _ _ _ _)
  · exact (kept_joinBacklog s n _).trans (kept_captureEnd _ _ _ _)

theorem kept_dropStartDown (s : State) (c : ControlRequest) : Kept s (s.dropStartDown c) :=
  (kept_takeBackUnsent s _ _).trans (kept_captureEnd _ _ _ _)

theorem kept_supplyFault (s : State) (n : LineId) : Kept s (s.supplyFault n) := by
  unfold State.supplyFault
  dsimp only
  split
  · exact .refl s
  · have h1 := (kept_setLine s n { s.line n with
      engine := .down, supplyOn := false, retryTimer := some 10, senseDue := false } rfl).trans
        (kept_raise _ .lineFault)
    split
    · exact ((((h1.trans (kept_handEnd _ n _ _)).trans (kept_setLine _ n _ (by rfl))).trans
        (kept_foldl _ (kept_dropPassDown n) _ _)).trans (kept_setLine _ n _ (by rfl))).trans
        ((kept_foldl _ kept_dropStartDown _ _).trans (kept_settleLine _ n))
    · exact (((h1.trans (kept_setLine _ n _ (by rfl))).trans (kept_foldl _ (kept_dropPassDown n) _ _)).trans
        (kept_setLine _ n _ (by rfl))).trans ((kept_foldl _ kept_dropStartDown _ _).trans (kept_settleLine _ n))

theorem kept_supplyRetry (s : State) (n : LineId) : Kept s (s.supplyRetry n) := by
  unfold State.supplyRetry
  dsimp only
  split
  · exact kept_setLine s n _ (by rfl)
  · exact .refl s

theorem kept_senseRead (s : State) (n : LineId) (b : Bool) : Kept s (s.senseRead n b) := by
  unfold State.senseRead
  dsimp only
  split
  · exact .refl s
  split
  · split
    · exact kept_setLine s n _ (by rfl)
    · exact (kept_setLine s n _ (by rfl)).trans (kept_settleLine _ n)
  split
  · exact (kept_setLine s n _ (by rfl)).trans (kept_supplyFault _ n)
  · exact kept_setLine s n _ (by rfl)

theorem kept_abortLine (s : State) (n : LineId) : Kept s (s.abortLine n) := by
  unfold State.abortLine
  split
  · exact (kept_endExchange s n _ _).trans (kept_settleLine _ n)
  · exact .refl s

theorem kept_resetLineEntries (s : State) (n : LineId) : Kept s (s.resetLineEntries n) := by
  refine kept_forEntries _ (fun i t => ?_) s
  split
  · exact kept_resetEntry i t
  · exact .refl t

theorem kept_resetLine (s : State) (n : LineId) : Kept s (s.resetLine n) :=
  (((kept_setLine s n _ (by rfl)).trans (kept_foldl _ (fun t _ => kept_joinBacklog t n _) _ _)).trans
    (kept_captureEndAll _ _ _)).trans (kept_resetLineEntries _ n)

theorem kept_resetEngine (n : LineId) (s : State) : Kept s (s.resetEngine n) := kept_setLine s n _ (by rfl)

/-! ### Mains Sense: the treatment of entries -/

theorem kept_lossEntry (n : LineId) (i : EntryId) (s : State) : Kept s (s.lossEntry n i) := by
  unfold State.lossEntry
  repeat' split
  all_goals first
    | exact .refl s
    | exact kept_recordVerdict s _ _ _
    | exact (kept_removeControl s n _ _).trans (kept_takeBack _ _ _)

theorem sameIdentity_afterOutage (e : Entry) (need : Nat) : SameIdentity e (e.afterOutage need) := by
  unfold Entry.afterOutage
  repeat' split
  all_goals exact sameIdentity_refl e

theorem kept_restoreEntry (n : LineId) (x : Nat) (i : EntryId) (s : State) : Kept s (s.restoreEntry n x i) := by
  unfold State.restoreEntry
  dsimp only
  split
  · exact kept_setEntry s i _ (sameIdentity_afterOutage _ _)
  · exact .refl s

/-! ### The due evaluation, the hand-off and the Lamp Path -/

theorem sameIdentity_evaluated (e : Entry) (g : GroupSettings) (now : Nat) : SameIdentity e (e.evaluated g now) := by
  unfold Entry.evaluated Entry.noteAdded
  split <;> exact sameIdentity_refl e

theorem kept_evaluate (s : State) (i : EntryId) : Kept s (s.evaluate i) := by
  unfold State.evaluate
  dsimp only
  split
  · exact (kept_setEntry s i _ (sameIdentity_evaluated _ _ _)).trans (kept_raise _ _)
  · exact kept_setEntry s i _ (sameIdentity_evaluated _ _ _)

theorem kept_admitRecord (s : State) (r : PlanRecord) : Kept s (s.admitRecord r) := by
  unfold State.admitRecord
  split
  · exact .refl s
  · exact kept_setBlock s _ _
  · exact (kept_setEntry s _ _ (by exact sameIdentity_refl _)).trans (kept_joinControl _ _ _ _ _)

theorem kept_entryAccepted (s : State) (i : EntryId) (name : ReqName) : Kept s (s.entryAccepted i name) := by
  unfold State.entryAccepted State.stopAccepted
  repeat' split
  all_goals first
    | exact .refl s
    | exact kept_setEntry s i _ (sameIdentity_refl _)
    | exact kept_toEnding s i _

theorem kept_lampAccept (s : State) (f : Frame) (i : EntryId) (name : ReqName) : Kept s (s.lampAccept f i name) :=
  ((kept_entryAccepted s i name).trans (kept_joinPass _ _ _)).trans (kept_settleLine _ _)

theorem kept_cancelPassStart (s : State) (n : LineId) (i : EntryId) : Kept s (s.cancelPassStart n i) :=
  ((kept_setLine s n _ (by rfl)).trans (kept_foldl _ (fun t _ => kept_joinBacklog t n _) _ _)).trans
    (kept_captureEndAll _ _ _)

theorem kept_lampCancel (s : State) (i : EntryId) : Kept s (s.lampCancel i) := by
  unfold State.lampCancel
  split
  · refine (Kept.trans ?_ (kept_setEntryState _ i _)).trans (kept_settleLine _ _)
    unfold State.cancelStart
    split
    · exact kept_removeControl s _ _ _
    · exact kept_cancelPassStart s _ _
  · exact .refl s

end Sys2Proof.Laws
end

