-- ==== Sys2Proof/Laws/Lines.lean ====
section
/-! SUPPORT. What the work on one line leaves alone on the other lines and in the transmit queue. -/

namespace Sys2Proof.Laws

open Sys2Proof.Machine Sys2Proof.Machine.Safety

/-- Every line but `n`, and the transmit queue, are the same in `t` as in `s`. -/
structure OnlyLine (n : LineId) (s t : State) : Prop where
  others : ∀ m, m ≠ n → t.line m = s.line m
  tx     : t.tx = s.tx

theorem OnlyLine.refl (n : LineId) (s : State) : OnlyLine n s s := ⟨fun _ _ => rfl, rfl⟩

theorem OnlyLine.trans {n : LineId} {s t u : State} (h : OnlyLine n s t) (k : OnlyLine n t u) : OnlyLine n s u :=
  ⟨fun m hm => (k.others m hm).trans (h.others m hm), k.tx.trans h.tx⟩

/-- An update that keeps the lines and the transmit queue touches no line. -/
theorem onlyLine_of_eq {n : LineId} {s t : State} (hl : t.lines = s.lines) (ht : t.tx = s.tx) : OnlyLine n s t :=
  ⟨fun m _ => line_congr hl m, ht⟩

theorem onlyLine_setLine (n : LineId) (s : State) (l : LineEngine) : OnlyLine n s (s.setLine n l) :=
  ⟨fun _ hm => setLine_line_ne s l (Ne.symm hm), rfl⟩

theorem onlyLine_setEngine (n : LineId) (s : State) (g : Engine) : OnlyLine n s (s.setEngine n g) :=
  onlyLine_setLine n s _

theorem onlyLine_joinBacklog (n : LineId) (s : State) (f : Frame) : OnlyLine n s (s.joinBacklog n f) :=
  onlyLine_setLine n s _

theorem onlyLine_foldl {α : Type} {n : LineId} (f : State → α → State) (h : ∀ s a, OnlyLine n s (f s a)) (l : List α)
    (s : State) : OnlyLine n s (l.foldl f s) := by
  induction l generalizing s with
  | nil => exact .refl n s
  | cons a l ih => exact (h s a).trans (ih (f s a))

/-! ### Flags and captures touch no line -/

@[simp] theorem noteRise_lines (s : State) (f : EventFlag) : (s.noteRise f).lines = s.lines := by
  unfold State.noteRise; repeat' split
  all_goals rfl

@[simp] theorem noteRise_tx (s : State) (f : EventFlag) : (s.noteRise f).tx = s.tx := by
  unfold State.noteRise; repeat' split
  all_goals rfl

@[simp] theorem noteRise_entries (s : State) (f : EventFlag) : (s.noteRise f).entries = s.entries := by
  unfold State.noteRise; repeat' split
  all_goals rfl

@[simp] theorem noteRise_capture (s : State) (f : EventFlag) : (s.noteRise f).capture = s.capture := by
  unfold State.noteRise; repeat' split
  all_goals rfl

@[simp] theorem noteRise_flags (s : State) (f : EventFlag) : (s.noteRise f).flags = s.flags := by
  unfold State.noteRise; repeat' split
  all_goals rfl

@[simp] theorem raise_lines (s : State) (f : EventFlag) : (s.raise f).lines = s.lines := by
  unfold State.raise; split <;> simp

@[simp] theorem raise_tx (s : State) (f : EventFlag) : (s.raise f).tx = s.tx := by
  unfold State.raise; split <;> simp

@[simp] theorem raise_entries (s : State) (f : EventFlag) : (s.raise f).entries = s.entries := by
  unfold State.raise; split <;> simp

@[simp] theorem raise_capture (s : State) (f : EventFlag) : (s.raise f).capture = s.capture := by
  unfold State.raise; split <;> simp

@[simp] theorem raise_entry (s : State) (f : EventFlag) (i : EntryId) : (s.raise f).entry i = s.entry i :=
  entry_congr (raise_entries s f) i

@[simp] theorem raise_line (s : State) (f : EventFlag) (n : LineId) : (s.raise f).line n = s.line n :=
  line_congr (raise_lines s f) n

/-- Raising sets the flag and keeps the others. -/
theorem raise_flags (s : State) (f : EventFlag) : (s.raise f).flags = s.flags ∨ (s.raise f).flags = s.flags ||| f.mask := by
  unfold State.raise; split
  · exact .inl rfl
  · exact .inr (noteRise_flags _ _)

@[simp] theorem raise_flag_self (s : State) (f : EventFlag) : (s.raise f).flag f = true := by
  unfold State.raise; split
  · assumption
  · simp only [State.flag, noteRise_flags, EventFlag.isIn, BitVec.getLsbD_or, EventFlag.mask]
    cases f <;> simp [EventFlag.bit]

/-- A set flag stays set when another is raised. -/
theorem raise_flag_mono (s : State) (f g : EventFlag) (h : s.flag g = true) : (s.raise f).flag g = true := by
  rcases raise_flags s f with e | e
  · simpa [State.flag, e] using h
  · simp only [State.flag, e, EventFlag.isIn, BitVec.getLsbD_or]
    simp only [State.flag, EventFlag.isIn] at h
    simp [h]

/-- Raising a flag changes the flags and the notice marks, and nothing else. -/
theorem raise_onlyFlags (s : State) (f : EventFlag) : OnlyFlagsDiffer s (s.raise f) := by
  unfold OnlyFlagsDiffer State.raise State.noteRise
  repeat' split
  all_goals rfl

@[simp] theorem captureHold_lines (s : State) (i : EntryId) : (s.captureHold i).lines = s.lines := by
  unfold State.captureHold; split <;> rfl

@[simp] theorem captureHold_tx (s : State) (i : EntryId) : (s.captureHold i).tx = s.tx := by
  unfold State.captureHold; split <;> rfl

@[simp] theorem captureHold_flags (s : State) (i : EntryId) : (s.captureHold i).flags = s.flags := by
  unfold State.captureHold; split <;> rfl

@[simp] theorem captureOffer_lines (s : State) (o : CaptureOrigin) (r : ReqName) (a : Argument) (i : EntryId)
    (n : LineId) (node : Nat) : (s.captureOffer o r a i n node).lines = s.lines := by
  unfold State.captureOffer; split <;> rfl

@[simp] theorem captureOffer_tx (s : State) (o : CaptureOrigin) (r : ReqName) (a : Argument) (i : EntryId)
    (n : LineId) (node : Nat) : (s.captureOffer o r a i n node).tx = s.tx := by
  unfold State.captureOffer; split <;> rfl

@[simp] theorem captureOffer_entries (s : State) (o : CaptureOrigin) (r : ReqName) (a : Argument) (i : EntryId)
    (n : LineId) (node : Nat) : (s.captureOffer o r a i n node).entries = s.entries := by
  unfold State.captureOffer; split <;> rfl

@[simp] theorem captureOffer_flags (s : State) (o : CaptureOrigin) (r : ReqName) (a : Argument) (i : EntryId)
    (n : LineId) (node : Nat) : (s.captureOffer o r a i n node).flags = s.flags := by
  unfold State.captureOffer; split <;> rfl

@[simp] theorem captureEnd_lines (s : State) (m : Option Nat) (i : EntryId) (a : CaptureAnswer) :
    (s.captureEnd m i a).lines = s.lines := by
  unfold State.captureEnd; split <;> simp

@[simp] theorem captureEnd_tx (s : State) (m : Option Nat) (i : EntryId) (a : CaptureAnswer) :
    (s.captureEnd m i a).tx = s.tx := by
  unfold State.captureEnd; split <;> simp

theorem captureEndAll_lines (s : State) (l : List (Option Nat × EntryId)) (a : CaptureAnswer) :
    (s.captureEndAll l a).lines = s.lines := by
  unfold State.captureEndAll
  induction l generalizing s with
  | nil => rfl
  | cons r l ih => exact (ih (s.captureEnd r.1 r.2 a)).trans (captureEnd_lines s _ _ _)

theorem captureEndAll_tx (s : State) (l : List (Option Nat × EntryId)) (a : CaptureAnswer) :
    (s.captureEndAll l a).tx = s.tx := by
  unfold State.captureEndAll
  induction l generalizing s with
  | nil => rfl
  | cons r l ih => exact (ih (s.captureEnd r.1 r.2 a)).trans (captureEnd_tx s _ _ _)

theorem onlyLine_captureEndAll (n : LineId) (s : State) (l : List (Option Nat × EntryId)) (a : CaptureAnswer) :
    OnlyLine n s (s.captureEndAll l a) := onlyLine_of_eq (captureEndAll_lines s l a) (captureEndAll_tx s l a)

theorem onlyLine_captureEnd (n : LineId) (s : State) (m : Option Nat) (i : EntryId) (a : CaptureAnswer) :
    OnlyLine n s (s.captureEnd m i a) := onlyLine_of_eq (captureEnd_lines s m i a) (captureEnd_tx s m i a)

theorem onlyLine_raise (n : LineId) (s : State) (f : EventFlag) : OnlyLine n s (s.raise f) :=
  onlyLine_of_eq (raise_lines s f) (raise_tx s f)

theorem onlyLine_raiseIf (n : LineId) (s : State) (f : Option EventFlag) : OnlyLine n s (s.raiseIf f) := by
  cases f with
  | none => exact .refl n s
  | some f => exact onlyLine_raise n s f

theorem onlyLine_setEntry (n : LineId) (s : State) (i : EntryId) (e : Entry) : OnlyLine n s (s.setEntry i e) :=
  onlyLine_of_eq rfl rfl

/-! ### The clients and the arbiter of one line -/

theorem onlyLine_joinControl (s : State) (n : LineId) (k : ControlKind) (i : EntryId) (node : Nat) :
    OnlyLine n s (s.joinControl n k i node) :=
  (onlyLine_of_eq (captureOffer_lines s _ _ _ _ _ _) (captureOffer_tx s _ _ _ _ _ _)).trans (onlyLine_setLine n _ _)

theorem onlyLine_joinPass (s : State) (n : LineId) (r : PassRequest) : OnlyLine n s (s.joinPass n r) :=
  (onlyLine_of_eq (captureOffer_lines s _ _ _ _ _ _) (captureOffer_tx s _ _ _ _ _ _)).trans (onlyLine_setLine n _ _)

theorem onlyLine_joinPoll (s : State) (i : EntryId) : OnlyLine (s.entry i).line s (s.joinPoll i) := by
  unfold State.joinPoll
  dsimp only
  split
  · exact .refl _ s
  · exact (onlyLine_of_eq (captureOffer_lines s _ _ _ _ _ _) (captureOffer_tx s _ _ _ _ _ _)).trans
      (onlyLine_setLine _ _ _)

theorem onlyLine_withdrawPoll (s : State) (i : EntryId) : OnlyLine (s.entry i).line s (s.withdrawPoll i) :=
  (onlyLine_setLine _ s _).trans (onlyLine_captureEndAll _ _ _ _)

theorem onlyLine_removeControl (s : State) (n : LineId) (p : ControlRequest → Bool) (a : CaptureAnswer) :
    OnlyLine n s (s.removeControl n p a) := (onlyLine_setLine n s _).trans (onlyLine_captureEndAll n _ _ _)

theorem onlyLine_placeStopsUpTo (k : Nat) (n : LineId) (s : State) : OnlyLine n s (s.placeStopsUpTo k n) := by
  induction k generalizing s with
  | zero => exact .refl n s
  | succ k ih =>
    unfold State.placeStopsUpTo
    split
    · split
      · exact (onlyLine_joinControl s n _ _ _).trans (ih _)
      · exact .refl n s
    · exact .refl n s

theorem onlyLine_placeStops (s : State) (n : LineId) : OnlyLine n s (s.placeStops n) := onlyLine_placeStopsUpTo 4 n s

theorem onlyLine_markStartSent (n : LineId) (s : State) (i : EntryId) (r : ReqName) :
    OnlyLine n s (s.markStartSent i r) := by
  unfold State.markStartSent
  split
  · exact onlyLine_setEntry n s i _
  · exact .refl n s

theorem onlyLine_beginExchange (s : State) (n : LineId) (c : Client) (w : Work) (node : Nat) :
    OnlyLine n s (s.beginExchange n c w node) := (onlyLine_setLine n s _).trans (onlyLine_markStartSent n _ _ _)

theorem onlyLine_grantTo (s : State) (n : LineId) (c : Client) : OnlyLine n s (s.grantTo n c) := by
  unfold State.grantTo
  dsimp only
  split <;> split <;>
    first | exact .refl n s | exact (onlyLine_setLine n s _).trans (onlyLine_beginExchange _ n _ _ _)

theorem onlyLine_grant (s : State) (n : LineId) : OnlyLine n s (s.grant n) := by
  unfold State.grant
  split
  · split
    · exact onlyLine_grantTo s n _
    · exact .refl n s
  · exact .refl n s

theorem onlyLine_settleLine (s : State) (n : LineId) : OnlyLine n s (s.settleLine n) :=
  ((onlyLine_placeStops s n).trans (onlyLine_grant _ n)).trans (onlyLine_placeStops _ n)

/-- Settling the lines leaves the transmit queue as it is. -/
theorem settleLines_tx (s : State) : s.settleLines.tx = s.tx := by
  unfold State.settleLines forLines
  generalize allLines = l
  induction l generalizing s with
  | nil => rfl
  | cons n l ih => exact (ih (s.settleLine n)).trans (onlyLine_settleLine s n).tx

/-! ### The Test Monitor works on the entry's own line -/

theorem onlyLine_verdictMove (n : LineId) (s : State) (i : EntryId) (k : Kind) (v : Verdict) (e : Nat) :
    OnlyLine n s (s.verdictMove i k v e) := by
  unfold State.verdictMove
  split
  · exact (onlyLine_setEntry n s i _).trans (onlyLine_raise n _ _)
  · exact onlyLine_setEntry n s i _

theorem onlyLine_recordVerdict (s : State) (i : EntryId) (v : Verdict) (e : Nat) :
    OnlyLine (s.entry i).line s (s.recordVerdict i v e) := by
  unfold State.recordVerdict
  split
  · exact .refl _ s
  · next t _ =>
    dsimp only
    generalize hw : ({ s.entry i with lastVerdict := some (v, t.kind) } : Entry).recordDone (v.doneFor t.kind)
      s.clockValid s.minute = w
    have k := (kept_setEntry s i w (by subst hw; exact sameIdentity_refl _)).trans (kept_raiseIf _ v.flag)
    have h := (onlyLine_setEntry (s.entry i).line s i w).trans (onlyLine_raiseIf _ _ v.flag)
    have e := (k.map i).2.2.1
    generalize (s.setEntry i w).raiseIf v.flag = a at *
    rw [← e] at h ⊢
    exact ((h.trans (onlyLine_withdrawPoll a i)).trans (onlyLine_removeControl _ _ _ _)).trans
      (onlyLine_verdictMove _ _ _ _ _ _)

end Sys2Proof.Laws
end

