-- ==== Sys2Proof/Laws/Entries.lean ====
section
/-! SUPPORT. What the shared operations do to the entries of the Luminaire Map, and how a count changes when one entry is
written. -/

namespace Sys2Proof.Laws

open Sys2Proof.Machine Sys2Proof.Machine.Safety

/-! ### Only the hold of an entry -/

/-- Every entry is the same but for its hold: what a completing capture can do (R166). -/
def HeldOnly (s t : State) : Prop := ∀ i : EntryId, ∃ h, t.entry i = { s.entry i with held := h }

theorem HeldOnly.refl (s : State) : HeldOnly s s := fun i => ⟨(s.entry i).held, rfl⟩

theorem HeldOnly.trans {s t u : State} (h : HeldOnly s t) (k : HeldOnly t u) : HeldOnly s u := by
  intro i
  obtain ⟨a, ha⟩ := h i
  obtain ⟨b, hb⟩ := k i
  exact ⟨b, by rw [hb, ha]⟩

theorem heldOnly_of_eq {s t : State} (h : t.entries = s.entries) : HeldOnly s t :=
  fun i => ⟨(s.entry i).held, by rw [entry_congr h i]⟩

/-- An entry keeps its state, whatever becomes of its hold. -/
theorem HeldOnly.state {s t : State} (h : HeldOnly s t) (i : EntryId) : (t.entry i).state = (s.entry i).state := by
  obtain ⟨a, ha⟩ := h i
  rw [ha]

theorem heldOnly_captureHold (s : State) (i : EntryId) : HeldOnly s (s.captureHold i) := by
  unfold State.captureHold
  split
  · intro j
    rw [setEntry_entry]
    split
    · next h => exact ⟨true, by rw [h]⟩
    · exact ⟨(s.entry j).held, rfl⟩
  · exact .refl s

theorem heldOnly_captureEnd (s : State) (m : Option Nat) (i : EntryId) (a : CaptureAnswer) :
    HeldOnly s (s.captureEnd m i a) := by
  unfold State.captureEnd
  split
  · exact HeldOnly.trans (heldOnly_of_eq (by rw [raise_entries])) (heldOnly_captureHold _ i)
  · exact .refl s

theorem heldOnly_captureEndAll (s : State) (l : List (Option Nat × EntryId)) (a : CaptureAnswer) :
    HeldOnly s (s.captureEndAll l a) := by
  unfold State.captureEndAll
  induction l generalizing s with
  | nil => exact .refl s
  | cons r l ih => exact (heldOnly_captureEnd s _ _ _).trans (ih _)

theorem heldOnly_withdrawPoll (s : State) (i : EntryId) : HeldOnly s (s.withdrawPoll i) :=
  HeldOnly.trans (t := s.setLine (s.entry i).line { s.line (s.entry i).line with
    polls := (s.line (s.entry i).line).polls.filter fun p => p.entry != i }) (heldOnly_of_eq rfl)
    (heldOnly_captureEndAll _ _ _)

theorem heldOnly_removeControl (s : State) (n : LineId) (p : ControlRequest → Bool) (a : CaptureAnswer) :
    HeldOnly s (s.removeControl n p a) :=
  HeldOnly.trans (t := s.setLine n { s.line n with control := (s.line n).control.filter fun c => !p c })
    (heldOnly_of_eq rfl) (heldOnly_captureEndAll _ _ _)

/-! ### Requests that join leave the entries alone -/

@[simp] theorem joinControl_entries (s : State) (n : LineId) (k : ControlKind) (i : EntryId) (node : Nat) :
    (s.joinControl n k i node).entries = s.entries := captureOffer_entries s _ _ _ _ _ _

@[simp] theorem joinPass_entries (s : State) (n : LineId) (r : PassRequest) : (s.joinPass n r).entries = s.entries :=
  captureOffer_entries s _ _ _ _ _ _

@[simp] theorem joinPoll_entries (s : State) (i : EntryId) : (s.joinPoll i).entries = s.entries := by
  unfold State.joinPoll
  dsimp only
  split
  · rfl
  · exact captureOffer_entries s _ _ _ _ _ _

@[simp] theorem placeStopsUpTo_entries (k : Nat) (n : LineId) (s : State) :
    (s.placeStopsUpTo k n).entries = s.entries := by
  induction k generalizing s with
  | zero => rfl
  | succ k ih =>
    unfold State.placeStopsUpTo
    split
    · split
      · rw [ih, joinControl_entries]
      · rfl
    · rfl

@[simp] theorem placeStops_entries (s : State) (n : LineId) : (s.placeStops n).entries = s.entries :=
  placeStopsUpTo_entries 4 n s

/-! ### Only start sent -/

/-- Every entry is the same, but that a PENDING one may have its start sent: what a grant can do (R92, R144). -/
def StartsOnly (s t : State) : Prop :=
  ∀ i : EntryId, t.entry i = s.entry i ∨ ∃ u, (s.entry i).state = .pending u ∧
    t.entry i = { s.entry i with state := .pending { u with startSent := true } }

theorem StartsOnly.refl (s : State) : StartsOnly s s := fun _ => .inl rfl

theorem StartsOnly.trans {s t u : State} (h : StartsOnly s t) (k : StartsOnly t u) : StartsOnly s u := by
  intro i
  rcases h i with ht | ⟨a, ha, ht⟩
  · rcases k i with hu | ⟨b, hb, hu⟩
    · exact .inl (hu.trans ht)
    · exact .inr ⟨b, ht ▸ hb, by rw [hu, ht]⟩
  · rcases k i with hu | ⟨b, hb, hu⟩
    · exact .inr ⟨a, ha, hu.trans ht⟩
    · refine .inr ⟨a, ha, ?_⟩
      rw [ht] at hb
      injection hb with hb
      rw [hu, ht, ← hb]

theorem startsOnly_of_eq {s t : State} (h : t.entries = s.entries) : StartsOnly s t := fun i => .inl (entry_congr h i)

/-- An entry that is not PENDING stays as it is. -/
theorem StartsOnly.same {s t : State} (h : StartsOnly s t) (i : EntryId)
    (hp : ∀ u, (s.entry i).state ≠ .pending u) : t.entry i = s.entry i := by
  rcases h i with e | ⟨u, hu, _⟩
  · exact e
  · exact absurd hu (hp u)

theorem startsOnly_markStartSent (s : State) (i : EntryId) (r : ReqName) : StartsOnly s (s.markStartSent i r) := by
  unfold State.markStartSent
  split
  · next u _ hu =>
    intro j
    rw [setEntryState_entry]
    split
    · next h => subst h; exact .inr ⟨_, hu, rfl⟩
    · exact .inl rfl
  · exact .refl s

theorem startsOnly_beginExchange (s : State) (n : LineId) (c : Client) (w : Work) (node : Nat) :
    StartsOnly s (s.beginExchange n c w node) := by
  unfold State.beginExchange
  exact StartsOnly.trans (startsOnly_of_eq (by rfl)) (startsOnly_markStartSent _ _ _)

theorem startsOnly_grantTo (s : State) (n : LineId) (c : Client) : StartsOnly s (s.grantTo n c) := by
  unfold State.grantTo
  dsimp only
  split <;> split <;> first
    | exact .refl s
    | exact StartsOnly.trans (startsOnly_of_eq (by rfl)) (startsOnly_beginExchange _ n _ _ _)

theorem startsOnly_grant (s : State) (n : LineId) : StartsOnly s (s.grant n) := by
  unfold State.grant
  split
  · split
    · exact startsOnly_grantTo s n _
    · exact .refl s
  · exact .refl s

theorem startsOnly_settleLine (s : State) (n : LineId) : StartsOnly s (s.settleLine n) :=
  ((startsOnly_of_eq (placeStops_entries s n)).trans (startsOnly_grant _ n)).trans
    (startsOnly_of_eq (placeStops_entries _ n))

theorem startsOnly_settleLines (s : State) : StartsOnly s s.settleLines := by
  unfold State.settleLines forLines
  generalize allLines = l
  induction l generalizing s with
  | nil => exact .refl s
  | cons n l ih => exact (startsOnly_settleLine s n).trans (ih _)

/-! ### A line that is not IDLE is granted nothing -/

theorem grant_of_busy (s : State) (n : LineId) (h : (s.line n).engine.isIdle = false) : s.grant n = s := by
  simp [State.grant, h]

/-- Joining the control queue changes no engine. -/
theorem joinControl_engine (s : State) (n m : LineId) (k : ControlKind) (i : EntryId) (node : Nat) :
    ((s.joinControl n k i node).line m).engine = (s.line m).engine := by
  unfold State.joinControl
  dsimp only
  rw [setLine_line]
  split
  · next h => subst h; simp only [line_congr (captureOffer_lines s _ _ _ _ _ _)]
  · simp only [line_congr (captureOffer_lines s _ _ _ _ _ _)]

theorem placeStopsUpTo_engine (k : Nat) (n m : LineId) (s : State) :
    ((s.placeStopsUpTo k n).line m).engine = (s.line m).engine := by
  induction k generalizing s with
  | zero => rfl
  | succ k ih =>
    unfold State.placeStopsUpTo
    split
    · split
      · rw [ih, joinControl_engine]
      · rfl
    · rfl

/-- Placing the owed stops changes no engine. -/
@[simp] theorem placeStops_engine (s : State) (n m : LineId) :
    ((s.placeStops n).line m).engine = (s.line m).engine := placeStopsUpTo_engine 4 n m s

/-- Settling a line that is not IDLE only places stops. -/
theorem settleLine_of_busy (s : State) (n : LineId) (h : (s.line n).engine.isIdle = false) :
    s.settleLine n = (s.placeStops n).placeStops n := by
  unfold State.settleLine
  rw [grant_of_busy _ n (by rw [placeStops_engine]; exact h)]

/-! ### Counts -/

/-- A count after one entry is written: the old entry leaves it, the new one joins it. -/
theorem count_setEntry (s : State) (i : EntryId) (e : Entry) (p : Entry → Bool) :
    (s.setEntry i e).count p + (if p (s.entry i) then 1 else 0) = s.count p + (if p e then 1 else 0) := by
  have hi : i.val < s.entries.toList.length := by simp
  have hx : s.entries.toList[i.val] = s.entry i := by simp [State.entry]
  have hl : (s.setEntry i e).entries.toList = s.entries.toList.set i.val e := by
    simp [State.setEntry, Vector.toList_set]
  unfold State.count
  rw [hl, List.countP_set hi, hx]
  have hp : p (s.entry i) = true → 0 < s.entries.toList.countP p := by
    intro h
    exact List.countP_pos_iff.mpr ⟨_, List.getElem_mem hi, hx ▸ h⟩
  by_cases h : p (s.entry i) = true
  · have := hp h
    simp only [h, if_true]
    omega
  · simp [h]

/-- A count stays when the written entry and the old one agree on it. -/
theorem count_setEntry_same (s : State) (i : EntryId) (e : Entry) (p : Entry → Bool) (h : p e = p (s.entry i)) :
    (s.setEntry i e).count p = s.count p := by
  have := count_setEntry s i e p
  rw [h] at this
  omega

/-- Counts over the same entries agree. -/
theorem count_congr {s t : State} (h : t.entries = s.entries) (p : Entry → Bool) : t.count p = s.count p := by
  unfold State.count
  rw [h]

end Sys2Proof.Laws
end

