-- ==== Sys2Proof/Laws/Lookups.lean ====
section
/-! SUPPORT. What the counts, the two translations, the place of a blackout, the numbers in bytes, the body lengths and
the waiters are, each in one lemma. -/

namespace Sys2Proof.Laws

open Sys2Proof.Machine Sys2Proof.Machine.Safety

/-! ### Counts and translation -/

/-- A count over the map is a count over its indices. -/
theorem count_eq_countP (s : State) (p : Entry → Bool) :
    s.count p = (List.finRange 240).countP fun i => p (s.entry i) := by
  have h : s.entries.toList = (List.finRange 240).map s.entry := by
    apply List.ext_getElem
    · simp
    · intro k h1 h2
      simp [State.entry]
  unfold State.count
  rw [h, List.countP_map]
  rfl

/-- Translation by campus number gives an in-use entry with that number (R4). -/
theorem findCln_some {s : State} {c : Nat} {i : EntryId} (h : s.findCln c = some i) :
    (s.entry i).inUse = true ∧ (s.entry i).cln = c := by
  simpa using List.find?_some h

/-- It finds none only where there is none. -/
theorem findCln_none (s : State) (c : Nat) :
    s.findCln c = none ↔ ∀ i : EntryId, ¬((s.entry i).inUse = true ∧ (s.entry i).cln = c) := by
  unfold State.findCln allEntries
  simp

/-- Translation by place gives an in-use entry with that line and node (R5). -/
theorem findPlace_some {s : State} {n : LineId} {node : Nat} {i : EntryId} (h : s.findPlace n node = some i) :
    (s.entry i).inUse = true ∧ (s.entry i).line = n ∧ (s.entry i).node = node := by
  have k := List.find?_some h
  simp only [Bool.and_eq_true, beq_iff_eq] at k
  exact ⟨k.1.1, k.1.2, k.2⟩

/-- It finds none only where there is none. -/
theorem findPlace_none (s : State) (n : LineId) (node : Nat) :
    s.findPlace n node = none ↔
      ∀ i : EntryId, ¬((s.entry i).inUse = true ∧ (s.entry i).line = n ∧ (s.entry i).node = node) := by
  unfold State.findPlace allEntries
  simp

/-! ### The place of a blackout (R48) -/

/-- A new blackout stands behind the leading entries that come before it. -/
theorem placeBlackout_split (b : Blackout) (l : List Blackout) : ∃ pre post, l = pre ++ post ∧
    placeBlackout b l = pre ++ b :: post ∧ (∀ x ∈ pre, x.before b = true) ∧
    ∀ y ∈ post.head?, y.before b = false := by
  induction l with
  | nil => exact ⟨[], [], rfl, rfl, by simp, by simp⟩
  | cons y rest ih =>
    by_cases h : y.before b = true
    · obtain ⟨pre, post, h1, h2, h3, h4⟩ := ih
      refine ⟨y :: pre, post, by rw [h1]; rfl, ?_, ?_, h4⟩
      · simp [placeBlackout, h, h2]
      · intro x hx
        rcases List.mem_cons.mp hx with rfl | hx
        · exact h
        · exact h3 x hx
    · refine ⟨[], y :: rest, rfl, ?_, by simp, ?_⟩
      · simp [placeBlackout, h]
      · simpa using h

/-! ### Numbers in bytes -/

@[simp] theorem length_beBytes (k n : Nat) : (beBytes k n).length = k := by
  induction k with
  | zero => rfl
  | succ k ih => simp [beBytes, ih]

/-- The number that some bytes behind others spell. -/
theorem foldl_beBytes (k n a : Nat) :
    (beBytes k n).foldl (fun a b => a * 256 + b.toNat) a = a * 256 ^ k + n % 256 ^ k := by
  induction k generalizing a with
  | zero => simp [beBytes, Nat.mod_one]
  | succ k ih =>
    simp only [beBytes, List.foldl_cons, ih, byteOf, BitVec.toNat_ofNat]
    have h : n % 256 ^ (k + 1) = n / 256 ^ k % 256 * 256 ^ k + n % 256 ^ k := by
      rw [Nat.pow_succ, Nat.mod_mul, Nat.mul_comm (256 ^ k), Nat.add_comm]
    have e : (256 : Nat) ^ (k + 1) = 256 * 256 ^ k := by rw [Nat.pow_succ, Nat.mul_comm]
    rw [h, e, Nat.add_mul, Nat.mul_assoc, Nat.add_assoc]

/-- `k` bytes spell the number they were made of, as far as it fits. -/
theorem beNat_beBytes (k n : Nat) : beNat (beBytes k n) = n % 256 ^ k := by
  unfold beNat
  rw [foldl_beBytes]
  simp

/-- The number in bytes that stand in a body. -/
theorem natAt_beBytes (front back : List Byte) (k n : Nat) (h : n < 256 ^ k) :
    natAt (front ++ (beBytes k n ++ back)) front.length k = n := by
  unfold natAt
  rw [List.drop_left, List.take_append_of_le_length (by simp), List.take_of_length_le (by simp), beNat_beBytes,
    Nat.mod_eq_of_lt h]

/-- A number in one byte. -/
theorem natAt_one (b : List Byte) (k : Nat) : natAt b k 1 = (byteAt b k).toNat := by
  unfold natAt byteAt
  rcases h : b.drop k with _ | ⟨x, rest⟩
  · have hk : b[k]? = none := by
      rw [List.getElem?_eq_none_iff]; exact List.drop_eq_nil_iff.mp h
    simp [hk, beNat]
  · have hk : b[k]? = some x := by
      have := congrArg List.head? h
      simpa [List.head?_drop] using this
    simp [hk, beNat]

/-! ### Waiters -/

theorem waits_iff (s : State) (w : Waiter) : s.waits w = true ↔ Waits s w := by
  cases w with
  | lampPath => rfl
  | management =>
    unfold Waits State.waits MgmtState.isAnswering
    cases s.mgmt <;> simp
  | backlog n =>
    unfold Waits State.waits
    cases (s.line n).backlog <;> simp
  | eventUnit => rfl

/-! ### Body lengths -/

/-- The framing check of a MGMT body is the table of lengths written out (R187). -/
theorem mgmtLengthOk_iff (b : List Byte) : mgmtLengthOk b = true ↔ MgmtLength b := by
  unfold mgmtLengthOk MgmtLength
  simp only [natAt_one]
  split
  case h_2 h =>
    unfold writeLengthOk
    simp only [natAt_one, h]
    rcases ht : Table.ofCode (byteAt b 1).toNat with _ | t
    · simp only [Table.ofCode] at ht
      split at ht <;> simp_all [recordLengths]
      intro _ _ length hl h0
      rw [List.getElem?_eq_none (by simp; omega)] at hl
      exact nomatch hl
    · simp only [Table.ofCode] at ht
      split at ht <;> simp_all [recordLengths, Table.writeLength]
      all_goals
        intro _ _ _
        subst ht
        exact Iff.rfl
  all_goals simp_all

end Sys2Proof.Laws
end

