-- ==== Sys2Proof/Laws/Forms.lean ====
section
/-! SUPPORT. The records of READ_TABLE, the capture block and the codes, byte by byte, each in one lemma. -/

namespace Sys2Proof.Laws

open Sys2Proof.Machine Sys2Proof.Machine.Safety

theorem beBytes_two (n : Nat) : beBytes 2 n = [byteOf (n / 256), byteOf n] := by simp [beBytes]

theorem beBytes_four (n : Nat) :
    beBytes 4 n = [byteOf (n / 16777216), byteOf (n / 65536), byteOf (n / 256), byteOf n] := by
  simp [beBytes]

/-- The codes are those of section 12.6, and numbers go out most significant byte first. -/
theorem codeTables : CodeTables :=
  ⟨rfl, rfl, rfl, rfl, rfl, fun n => ⟨beBytes_two n, beBytes_four n⟩⟩

@[simp] theorem length_filler (k n : Nat) : (filler k n).length = n := by simp [filler]

/-- A time field as it is sent (section 12). -/
theorem timeField_spec (t : Option Nat) : TimeField t (timeField t) := by
  cases t with
  | none => exact ⟨filler 1 4, by simp, rfl⟩
  | some m => rfl

/-- A last verdict as it is shown (section 12.4). -/
theorem verdictField_spec (v : Option (Verdict × Kind)) : VerdictField v (verdictField v) := by
  cases v with
  | none => exact ⟨Config.fillByte 1, rfl⟩
  | some p =>
    obtain ⟨v, k⟩ := p
    cases k <;> rfl

/-- The state part of a MAP read record (R10, R12, section 12.4). -/
theorem stateField_spec (st : EntryState) : StateField st ([byteOf st.code] ++ testField st.test ++
    beBytes 2 st.rechargeLeft ++ beBytes 2 st.retryLeft) := by
  cases st with
  | ready => exact ⟨filler 1 14, by simp, by simp [EntryState.test, testField, EntryState.rechargeLeft,
      EntryState.retryLeft, EntryState.code, byteOf]⟩
  | recharging k => exact ⟨filler 1 14, by simp, by simp [EntryState.test, testField, EntryState.rechargeLeft,
      EntryState.retryLeft, EntryState.code, byteOf]⟩
  | backoff k => exact ⟨filler 1 14, by simp, by simp [EntryState.test, testField, EntryState.rechargeLeft,
      EntryState.retryLeft, EntryState.code, byteOf]⟩
  | faulted => exact ⟨filler 1 14, by simp, by simp [EntryState.test, testField, EntryState.rechargeLeft,
      EntryState.retryLeft, EntryState.code, byteOf]⟩
  | pending u | testing u | ending u =>
    refine ⟨timeField u.startedAt, timeField_spec _, ?_⟩
    obtain ⟨k, o, _, _, _, _, a, b, _⟩ := u
    cases k <;> cases o <;> cases a <;> cases b <;>
      simp [EntryState.test, testField, EntryState.rechargeLeft, EntryState.retryLeft, EntryState.code, byteOf,
        Kind.code, Origin.code, boolByte, beBytes]

/-- A MAP read record, field by field (R20). -/
theorem mapReadForm (e : Entry) (i : EntryId) : MapReadForm e i (e.readRecord i) := by
  refine ⟨_, _, _, _, _, timeField_spec _, timeField_spec _, timeField_spec _, stateField_spec _,
    verdictField_spec _, ?_⟩
  cases h : e.lastBlock <;>
    simp [Entry.readRecord, Entry.writtenPart, Entry.historyPart, Entry.flagsByte, bits4, boolByte, blockField, h]

/-- The station address of a strap number, byte by byte (R151). -/
theorem stationBytes (b : Byte) : beBytes 6 (stationAddressOf b).toNat = [0x02, 0xA7, 0x3C, 0, 0, b] := by
  have : ∀ b : Byte, beBytes 6 (stationAddressOf b).toNat = [0x02, 0xA7, 0x3C, 0, 0, b] := by decide
  exact this b

/-- The read record of each table, field by field (section 12.4). -/
theorem readForms (s : State) : ReadForms s := by
  refine ⟨fun i => ?_, fun k => ?_, fun row => ?_, fun k b h => ?_, fun c => ?_, fun k => ?_, fun n => ?_, ?_⟩
  · simpa [State.readRecord] using mapReadForm (s.entry i) i
  · simp [State.readRecord, GroupSettings.record]
  · simp [State.readRecord, CalendarRow.record, boolByte]
  · simp [State.readRecord, h, Blackout.record]
  · simp [State.readRecord]
  · simp [State.readRecord, boolByte]
  · simp [State.readRecord, LineSettings.record]
  · simp [State.readRecord, State.bridgeRecord, State.stationAddress, stationBytes, boolByte]

/-- The status block has 78 bytes (section 12.3). -/
theorem length_statusBlock (s : State) : s.statusBlock.length = 78 := by
  simp [State.statusBlock, State.stateCounts, allLines, State.lineStatus] <;> decide

/-- The capture block, field by field (section 12.3). -/
theorem captureShows (c : Capture) : CaptureShows c c.block := by
  have hr : ∀ r : CaptureRecord, ∃ clock answer, TimeField r.clock clock ∧ CaptureAnswerField r.answer answer ∧
      1 :: r.block = [1, if r.origin = .headend then 1 else 2, byteOf r.name.code, r.arg.b0, r.arg.b1, r.arg.b2,
        byteOf r.line.val, byteOf r.node] ++ clock ++ answer := by
    intro r
    refine ⟨timeField r.clock, [byteOf (captureAnswerCode r.answer), byteOf r.nodeBytes.length] ++ r.nodeBytes ++
      filler r.nodeBytes.length (8 - r.nodeBytes.length), timeField_spec _, ?_, ?_⟩
    · obtain ⟨o, n, a, l, d, c, ans⟩ := r
      rcases ans with _ | ⟨b⟩ | ⟨code⟩ | _
      all_goals exact ⟨_, length_filler _ _, rfl⟩
    · obtain ⟨o, n, a, l, d, c, ans⟩ := r
      cases o <;> simp [CaptureRecord.block, CaptureOrigin.code, byteOf]
  obtain ⟨target, mode, action, state, mark⟩ := c
  rcases state with r | _ | ⟨r, k⟩
  · rcases r with _ | r
    · exact ⟨_, by cases mode <;> cases action <;> rfl, fun _ => rfl, by simp⟩
    · exact ⟨_, by cases mode <;> cases action <;> rfl, by simp, fun r' h => by cases h; exact hr r⟩
  · exact ⟨_, by cases mode <;> cases action <;> rfl, fun _ => rfl, by simp⟩
  · exact ⟨_, by cases mode <;> cases action <;> rfl, by simp, fun r' h => by cases h; exact hr r⟩

end Sys2Proof.Laws
end

