-- ==== Sys2Proof/Laws/Management.lean ====
section
/-! SUPPORT. What the Management Engine's shared operations do: giving an answer, dealing with a record in hand, and
taking a frame from the middle of a queue. -/

namespace Sys2Proof.Laws

open Sys2Proof.Machine Sys2Proof.Machine.Safety

/-- Finishing a request gives its answer and does nothing else (R168). -/
theorem finish_answered (s : State) (who : Requester) (request : Nat) (code : MgmtCode) (fields : List Byte) :
    Answered s (s.finish who request code fields) who request code fields := by
  unfold Answered State.finish State.txFull
  by_cases h : 16 ≤ s.tx.length
  · simp [h, State.mgmtAnswer, State.frameTo, answerFrame, State.stationAddress]
  · have : s.tx.length < 16 := by omega
    simp [h, State.mgmtAnswer, State.frameTo, answerFrame, State.stationAddress, State.pushTx]

/-- The request in hand of an engine WORKING on one. -/
theorem inHand_of_working {s : State} {who : Requester} {r : MgmtRequest} (h : s.mgmt = .working who (.request r)) :
    s.inHand = some (who, r) := by
  simp [State.inHand, h]

/-- A walk whose next record satisfies the command's test deals with that record. -/
theorem writeStep_mine {s : State} {who : Requester} {t : Table} {r : TableRecord} {rest : List TableRecord}
    {taken : Nat} {mine : TableRecord → Bool} (h : s.mgmt = .working who (.writing t (r :: rest) taken))
    (hr : mine r = true) : s.writeStep mine = s.writeOne who t rest taken (s.takeRecord r) := by
  simp [State.writeStep, h, hr]

/-- A walk whose next record is another command's changes nothing. -/
theorem writeStep_other {s : State} {who : Requester} {t : Table} {r : TableRecord} {rest : List TableRecord}
    {taken : Nat} {mine : TableRecord → Bool} (h : s.mgmt = .working who (.writing t (r :: rest) taken))
    (hr : mine r = false) : s.writeStep mine = s := by
  simp [State.writeStep, h, hr]

/-- The oldest frame of a kind, and the queue without it. -/
theorem find_eraseP_split {p : Frame → Bool} {before after : List Frame} {f : Frame}
    (hb : ∀ g ∈ before, p g = false) (hf : p f = true) :
    (before ++ f :: after).find? p = some f ∧ (before ++ f :: after).eraseP p = before ++ after := by
  induction before with
  | nil => simp [hf]
  | cons x l ih =>
    have hx := hb x (List.mem_cons_self)
    have := ih fun g hg => hb g (List.mem_cons_of_mem x hg)
    simp [hx, this]

/-- A record's length and its number: `k` bytes, most significant first. -/
@[simp] theorem beBytes_length (k n : Nat) : (beBytes k n).length = k := by
  induction k generalizing n with
  | zero => rfl
  | succ k ih => simp [beBytes, ih]

/-- A status block has 78 bytes (section 12.3). -/
theorem statusBlock_length (s : State) : s.statusBlock.length = 78 := by
  simp [State.statusBlock, State.stateCounts, allLines, State.lineStatus, List.finRange]

end Sys2Proof.Laws
end

