-- ==== Sys2Proof/Laws/Image.lean ====
section
/-! SUPPORT. Reading the flash back, and the end of a save. -/

namespace Sys2Proof.Laws

open Sys2Proof.Machine

/-- The bytes that stand in the flash after some others are read as they stand. -/
theorem flashRead_middle (a b c : List Byte) : flashRead (a ++ (b ++ c)) a.length b.length = b := by
  simp [flashRead]

theorem flashRead_front (b c : List Byte) : flashRead (b ++ c) 0 b.length = b := flashRead_middle [] b c

theorem flashRead_back (a b : List Byte) : flashRead (a ++ b) a.length b.length = b := by
  simpa using flashRead_middle a b []

/-- The flash reads back whatever it reads: only the flags tell, and the flash keeps what the save wrote (R179). -/
theorem flashDone_readBack (s : State) (crc back : List Byte) (h : s.save = some (.readBack crc)) :
    s.flashDone back = s.saveEnd (if readBackAgrees back crc then .imageSaved else .imageFault) := by
  unfold State.flashDone
  rw [h]

end Sys2Proof.Laws
end

