-- ==== Sys2Proof/Laws/Load.lean ====
section
/-! SUPPORT. The load of an image: each record, each table and the whole image a save writes read back as what was saved
(R21, R178, R180), and the opening of the port. -/

namespace Sys2Proof.Laws

open Sys2Proof.Machine Sys2Proof.Machine.Safety

/-! ### Reading numbers back -/

theorem toNat_byteOf {n : Nat} (h : n < 256) : (byteOf n).toNat = n := by
  simp [byteOf, Nat.mod_eq_of_lt h]

/-- A number of `k` bytes behind `front`. -/
theorem natAt_front {b : List Byte} {k off n : Nat} (front back : List Byte) (e : b = front ++ (beBytes k n ++ back))
    (hl : front.length = off) (h : n < 256 ^ k) : natAt b off k = n := by
  subst hl; subst e; exact natAt_beBytes front back k n h

theorem byteAt_front {front back : List Byte} {off : Nat} (k : Nat) (hl : front.length = off) :
    byteAt (front ++ back) (off + k) = byteAt back k := by
  subst hl
  simp [byteAt, List.getD, List.getElem?_append_right]

/-- A time field behind `front`. -/
theorem timeAt_front {b : List Byte} {off : Nat} {t : Option Nat} (front back : List Byte)
    (e : b = front ++ (timeField t ++ back)) (hl : front.length = off) (h : ∀ m, t = some m → m < 4294967296) :
    timeAt b off = t := by
  subst e
  unfold timeAt yesAt
  have h0 := byteAt_front (front := front) (back := timeField t ++ back) 0 hl
  rw [Nat.add_zero] at h0
  rw [h0]
  cases t with
  | none => rfl
  | some m =>
    have hm := h m rfl
    have e : natAt (front ++ (timeField (some m) ++ back)) (off + 1) 4 = m :=
      natAt_front (front ++ [1]) back (by simp [timeField]) (by simp [hl]) (by simpa using hm)
    rw [e]
    simp [timeField, byteAt]

/-! ### One record of each settings table -/

theorem loadRecord_line (v s : State) (n : LineId) (h : lineSettingsOk (v.line n).settings) :
    s.loadRecord .line (v.readRecord .line n.val) =
      some (s.setLine n { s.line n with settings := (v.line n).settings }) := by
  obtain ⟨⟨h1, h2⟩, ⟨h3, h4⟩, h5, h6⟩ := h
  have hn := n.isLt
  have hp : parseRecord .line (v.readRecord .line n.val) = .line
      { line := n.val, replyWindow := (v.line n).settings.replyWindow, attempts := (v.line n).settings.attempts,
        pollPeriod := (v.line n).settings.pollPeriod } := by
    rw [(readForms v).2.2.2.2.2.2.1 n]
    simp only [parseRecord, parseLine, natAt_one, TableRecord.line.injEq, LineRecord.mk.injEq]
    exact ⟨toNat_byteOf (by omega), toNat_byteOf (by omega), toNat_byteOf (by omega),
      natAt_front [byteOf n.val, byteOf (v.line n).settings.replyWindow, byteOf (v.line n).settings.attempts] []
        (by simp) rfl (by omega)⟩
  simp only [State.loadRecord, hp, State.takeRecord, State.takeLine, hn, dif_pos]
  simp [LineRecord.settings, clamp, h1, h2, h3, h4, h5, h6]

theorem loadRecord_policy (v s : State) (k : Fin 8) :
    s.loadRecord .policy (v.readRecord .policy k.val) = some { s with policy := s.policy.set k v.policy[k] } := by
  have hk := k.isLt
  have hp : parseRecord .policy (v.readRecord .policy k.val) = .policy k.val v.policy[k] := by
    rw [(readForms v).2.2.2.2.2.1 k]
    simp only [parseRecord, natAt_one, yesAt]
    simp [byteAt]
    rw [toNat_byteOf (by omega)]
    cases v.policy[k.val] <;> simp
  simp only [State.loadRecord, hp, State.takeRecord, State.takePolicy, hk, dif_pos]

theorem loadRecord_criteria (v s : State) (c : Fin 16)
    (h : v.criteria[c] = 0 ∨ (800 ≤ v.criteria[c] ∧ v.criteria[c] ≤ 3600)) :
    s.loadRecord .criteria (v.readRecord .criteria c.val) =
      some { s with criteria := s.criteria.set c v.criteria[c] } := by
  have hk := c.isLt
  have hp : parseRecord .criteria (v.readRecord .criteria c.val) = .criteria c.val v.criteria[c] := by
    rw [(readForms v).2.2.2.2.1 c]
    simp only [parseRecord, natAt_one, TableRecord.criteria.injEq]
    exact ⟨toNat_byteOf (by omega), natAt_front [byteOf c.val] [] (by simp) rfl (by omega)⟩
  have hc : clampCriteria v.criteria[c] = v.criteria[c] := by
    unfold clampCriteria clamp
    rcases h with h | ⟨h1, h2⟩
    · simp [h]
    · rw [if_neg (by omega), Nat.min_eq_left h2, Nat.max_eq_right h1]
  simp only [State.loadRecord, hp, State.takeRecord, State.takeCriteria, hk, dif_pos, hc]

theorem loadRecord_group (v s : State) (g : Fin 32) (n o q : Nat) (h : groupOk (v.group g)) :
    s.loadRecord .group ((v.group g).record g.val n o q) = some { s with groups := s.groups.set g (v.group g) } := by
  have hk := g.isLt
  unfold groupOk at h
  generalize v.group g = x at h ⊢
  obtain ⟨a, b, c, d, e, f, i, j⟩ := x
  simp only at h
  have hc := c.isLt
  have hp : parseRecord .group (GroupSettings.record ⟨a, b, c, d, e, f, i, j⟩ g.val n o q) =
      .group ⟨g.val, a, b, c.val, d, e, f, i, j⟩ := by
    simp only [parseRecord, parseGroup, natAt_one, GroupSettings.record, TableRecord.group.injEq, GroupRecord.mk.injEq]
    refine ⟨?_, ?_, ?_, ?_, ?_, ?_, natAt_front [byteOf g.val, byteOf a, byteOf b, byteOf c.val, byteOf d, byteOf e]
      [byteOf i, byteOf j, byteOf n, byteOf o, byteOf q] (by simp) rfl (by omega), ?_, ?_⟩
    all_goals exact toNat_byteOf (by omega)
  have hs : GroupRecord.settings ⟨g.val, a, b, c.val, d, e, f, i, j⟩ ⟨c.val, hc⟩ = ⟨a, b, c, d, e, f, i, j⟩ := by
    simp only [GroupRecord.settings, clamp, clampTolerance, GroupSettings.mk.injEq]
    refine ⟨?_, ?_, trivial, ?_, ?_, ?_, ?_, ?_⟩ <;> omega
  simp only [State.loadRecord, hp, State.takeRecord, State.takeGroup, hk, hc, dif_pos, hs]

theorem loadRecord_calendar (v s : State) (row : Fin 7) (w : Byte) :
    s.loadRecord .calendar (v.rows[row].record row.val w) =
      some { s with rows := s.rows.set row { v.rows[row] with written := true } } := by
  have hk := row.isLt
  have hp : parseRecord .calendar (v.rows[row].record row.val w) = .calendar ⟨row.val, v.rows[row].masks⟩ := by
    simp only [parseRecord, parseCalendar, natAt_one, CalendarRow.record]
    simp only [TableRecord.calendar.injEq, CalendarRecord.mk.injEq]
    refine ⟨toNat_byteOf (by omega), ?_⟩
    apply Vector.ext
    intro k hk
    simp [byteAt, Nat.add_comm 2 k, hk]
  simp only [State.loadRecord, hp, State.takeRecord, State.takeCalendar, hk, dif_pos]

theorem loadRecord_blackout (s : State) (b : Blackout) (h1 : b.start < b.stop) (h2 : b.classes ≠ 0)
    (h3 : b.stop < 4294967296) (h4 : b ∉ s.blackouts) (h5 : s.blackouts.length < 16)
    (h6 : ∀ x ∈ s.blackouts, x.before b = true) :
    s.loadRecord .blackout b.record = some { s with blackouts := s.blackouts ++ [b] } := by
  have hp : parseRecord .blackout b.record = .blackout b := by
    simp only [parseRecord, parseBlackout, Blackout.record]
    obtain ⟨start, stop, classes⟩ := b
    simp only [TableRecord.blackout.injEq, Blackout.mk.injEq]
    exact ⟨natAt_front [] (beBytes 4 stop ++ [classes]) (by simp) rfl (by simp at h1 h3 ⊢; omega),
      natAt_front (beBytes 4 start) [classes] (by simp) (by simp) (by simpa using h3),
      byteAt_front (front := beBytes 4 start ++ beBytes 4 stop) (back := [classes]) (off := 8) 0 (by simp)⟩
  have hpl : ∀ l : List Blackout, (∀ x ∈ l, x.before b = true) → placeBlackout b l = l ++ [b] := by
    intro l hl
    induction l with
    | nil => rfl
    | cons y rest ih => simp [placeBlackout, hl y (by simp), ih (fun x hx => hl x (by simp [hx]))]
  simp only [State.loadRecord, hp, State.takeRecord, State.takeBlackout, State.blackoutInsert]
  rw [if_neg h2, if_neg (by omega), if_neg (by simpa using h4), if_neg (by omega), hpl _ h6]

theorem loadRecord_bridge (v s : State) (h : settingsOk v.settings) (hp : s.passState = .idle) (hl : s.plan = [])
    (hn : s.noticePending = false) (ho : s.noticeOwed = false) :
    s.loadRecord .bridge (v.readRecord .bridge 0) = some { s with settings := v.settings } := by
  unfold settingsOk at h
  have hr : v.readRecord .bridge 0 = v.bridgeRecord := rfl
  rw [hr]
  unfold State.bridgeRecord
  generalize v.stationAddress.toNat = sa
  generalize hx : v.settings = x at h ⊢
  obtain ⟨a, b, c, d, e, f, i, t, m, r, k⟩ := x
  simp only at h
  have hm := m.isLt
  have ht := t.isLt
  have hrr := r.isLt
  have hkk := k.isLt
  generalize hF : [0, boolByte a, byteOf b, byteOf c, byteOf d, byteOf e, byteOf f] = F
  have hl7 : F.length = 7 := by rw [← hF]; rfl
  have hp : parseBridge (F ++ beBytes 2 i ++ beBytes 2 t.toNat ++ [byteOf m.val] ++ beBytes 6 r.toNat ++
      beBytes 2 k.toNat ++ [v.strap] ++ beBytes 6 sa) = ⟨0, a, b, c, d, e, f, i, t, m.val, r, k⟩ := by
    have at0 (z : Nat) (hz : z < 7) (back : List Byte) : byteAt (F ++ back) z = byteAt F z := by
      simp [byteAt, List.getD, List.getElem?_append_left (by omega : z < F.length)]
    have mode : byteAt (F ++ (beBytes 2 i ++ (beBytes 2 t.toNat ++ ([byteOf m.val] ++ (beBytes 6 r.toNat ++
        (beBytes 2 k.toNat ++ ([v.strap] ++ beBytes 6 sa))))))) 11 = byteOf m.val := by
      have h := byteAt_front (front := F ++ (beBytes 2 i ++ beBytes 2 t.toNat)) (back := [byteOf m.val] ++
        (beBytes 6 r.toNat ++ (beBytes 2 k.toNat ++ ([v.strap] ++ beBytes 6 sa)))) (off := 11) 0 (by simp [hl7])
      simp only [List.append_assoc] at h
      exact h
    simp only [parseBridge, natAt_one, yesAt, List.append_assoc, BridgeRecord.mk.injEq]
    rw [at0 0 (by omega), at0 1 (by omega), at0 2 (by omega), at0 3 (by omega), at0 4 (by omega), at0 5 (by omega),
      at0 6 (by omega), mode]
    refine ⟨by subst hF; rfl, by subst hF; cases a <;> rfl, ?_, ?_, ?_, ?_, ?_, natAt_front F _ rfl hl7 (by omega),
      ?_, toNat_byteOf (by omega), ?_, ?_⟩
    · subst hF; exact toNat_byteOf (by omega)
    · subst hF; exact toNat_byteOf (by omega)
    · subst hF; exact toNat_byteOf (by omega)
    · subst hF; exact toNat_byteOf (by omega)
    · subst hF; exact toNat_byteOf (by omega)
    · rw [natAt_front (n := t.toNat) (F ++ beBytes 2 i) _ (by simp only [List.append_assoc]; rfl) (by simp [hl7])
        (by omega)]
      simp
    · rw [natAt_front (n := r.toNat) (F ++ (beBytes 2 i ++ (beBytes 2 t.toNat ++ [byteOf m.val]))) _
        (by simp only [List.append_assoc]; rfl) (by simp [hl7]) (by omega)]
      simp
    · rw [natAt_front (n := k.toNat)
        (F ++ (beBytes 2 i ++ (beBytes 2 t.toNat ++ ([byteOf m.val] ++ beBytes 6 r.toNat)))) _
        (by simp only [List.append_assoc]; rfl) (by simp [hl7]) (by omega)]
      simp
  have hs : BridgeRecord.settings ⟨0, a, b, c, d, e, f, i, t, m.val, r, k⟩ m = ⟨a, b, c, d, e, f, i, t, m, r, k⟩ := by
    simp only [BridgeRecord.settings, clamp, BridgeSettings.mk.injEq]
    refine ⟨trivial, ?_, ?_, ?_, ?_, ?_, ?_, trivial, trivial, trivial, trivial⟩ <;> omega
  have he : ∀ z : BridgeSettings, ({ s with settings := z } : State).endIfUnarmed = { s with settings := z } := by
    intro z
    unfold State.endIfUnarmed State.endPass
    split
    · rfl
    · cases s; simp_all
  have hd : ∀ z : BridgeSettings, ({ s with settings := z } : State).dropNotice = { s with settings := z } := by
    intro z
    unfold State.dropNotice
    split
    · cases s; simp_all
    · rfl
  subst hF
  simp only [State.loadRecord, parseRecord, hp, State.takeRecord, State.takeBridge]
  rw [if_neg (by simp), if_neg (by omega), dif_pos hm, hs, he, hd]

/-! ### One MAP record -/

theorem verdict_ofCode (v : Verdict) : Verdict.ofCode v.code = some v := by cases v <;> rfl
theorem blockReason_ofCode (r : BlockReason) : BlockReason.ofCode r.code = some r := by cases r <;> rfl
theorem kind_ofCode (k : Kind) : Kind.ofCode k.code = some k := by cases k <;> rfl

@[simp] theorem length_timeField (t : Option Nat) : (timeField t).length = 5 := by cases t <;> simp [timeField]
@[simp] theorem length_verdictField (v : Option (Verdict × Kind)) : (verdictField v).length = 2 := by
  cases v <;> simp [verdictField]
@[simp] theorem length_writtenPart (e : Entry) (i : EntryId) : (e.writtenPart i).length = 28 := by
  simp [Entry.writtenPart]
@[simp] theorem length_historyPart (e : Entry) : e.historyPart.length = 5 := by simp [Entry.historyPart]
@[simp] theorem length_imageRecord (e : Entry) (i : EntryId) : (e.imageRecord i).length = 53 := by
  simp [Entry.imageRecord]

/-- The times of an entry are minutes of 32 bits. -/
def TimesFit (e : Entry) : Prop :=
  ∀ m, e.addedAt = some m ∨ e.lastFunctionEnd = some m ∨ e.lastDurationEnd = some m → m < 4294967296

theorem bits4_getLsbD (a b c d : Bool) : (bits4 a b c d).getLsbD 0 = a ∧ (bits4 a b c d).getLsbD 1 = b ∧
    (bits4 a b c d).getLsbD 2 = c ∧ (bits4 a b c d).getLsbD 3 = d := by
  cases a <;> cases b <;> cases c <;> cases d <;> decide

/-- The record that writes an entry whole. -/
def wholeRecord (e : Entry) (i : EntryId) : MapRecord :=
  { index := i.val, identity := true, membership := true, ratings := true, flags := true, history := true,
    inUse := e.inUse, cln := e.cln, line := e.line.val, node := e.node, group := e.group.val,
    battery := e.battery.val, rated := e.rated, locked := e.locked, barred := e.barred, held := e.held,
    addedAt := e.addedAt, lastFunctionEnd := e.lastFunctionEnd, lastDurationEnd := e.lastDurationEnd }

/-- A MAP record in an image is read as a record that writes the entry whole. -/
theorem imageMapRecord_spec (e : Entry) (i : EntryId) (h : entryOk e) (ht : TimesFit e) :
    imageMapRecord (e.imageRecord i) = wholeRecord e i := by
  obtain ⟨⟨h1, h2, h3⟩, h4, h5, h6, h7⟩ := h
  have hc : e.cln < 4294967296 ∧ e.node < 256 := by
    cases hu : e.inUse with
    | true => have := h6 hu; omega
    | false => rw [h7 hu]; decide
  have hi := i.isLt
  have hl := e.line.isLt
  have hg := e.group.isLt
  have hb := e.battery.isLt
  obtain ⟨b0, b1, b2, b3⟩ := bits4_getLsbD e.locked e.barred e.held e.touched
  generalize hT : [if e.state = .faulted then (6 : Byte) else 0] ++ List.replicate 19 0 ++ e.historyPart = tail
  generalize hA : [byteOf i.val, 0, boolByte e.inUse] ++ beBytes 4 e.cln ++
    [byteOf e.line.val, byteOf e.node, byteOf e.group.val, byteOf e.battery.val, byteOf e.rated, e.flagsByte] = A
  have hAl : A.length = 13 := by rw [← hA]; simp
  have hb : e.imageRecord i = A ++ (timeField e.addedAt ++ (timeField e.lastFunctionEnd ++
      (timeField e.lastDurationEnd ++ tail))) := by
    rw [← hA, ← hT]
    simp [Entry.imageRecord, Entry.writtenPart]
  rw [hb]
  have at0 (z : Nat) (hz : z < 13) (back : List Byte) : byteAt (A ++ back) z = byteAt A z := by
    simp [byteAt, List.getD, List.getElem?_append_left (by omega : z < A.length)]
  simp only [imageMapRecord, parseMap, natAt_one, wholeRecord, MapRecord.mk.injEq, bitAt, yesAt]
  rw [at0 0 (by omega), at0 2 (by omega), at0 7 (by omega), at0 8 (by omega), at0 9 (by omega), at0 10 (by omega),
    at0 11 (by omega), at0 12 (by omega)]
  refine ⟨?_, trivial, trivial, trivial, trivial, trivial, ?_, ?_, ?_, ?_, ?_, ?_, ?_, ?_, ?_, ?_, ?_, ?_, ?_⟩
  rotate_left 11
  · exact timeAt_front A _ rfl hAl (fun m hm => ht m (.inl hm))
  · exact timeAt_front (A ++ timeField e.addedAt) _ (by simp only [List.append_assoc]; rfl) (by simp [hAl])
      (fun m hm => ht m (.inr (.inl hm)))
  · exact timeAt_front (A ++ (timeField e.addedAt ++ timeField e.lastFunctionEnd)) _
      (by simp only [List.append_assoc]; rfl) (by simp [hAl]) (fun m hm => ht m (.inr (.inr hm)))
  all_goals subst hA
  · exact toNat_byteOf (by omega)
  · cases e.inUse <;> rfl
  · exact natAt_front [byteOf i.val, 0, boolByte e.inUse] _ (by simp only [List.append_assoc]; rfl) rfl (by omega)
  all_goals simp only [beBytes_four]
  · exact toNat_byteOf (by omega)
  · exact toNat_byteOf (by omega)
  · exact toNat_byteOf (by omega)
  · exact toNat_byteOf (by omega)
  · exact toNat_byteOf (by omega)
  · exact b0
  · exact b1
  · exact b2

theorem imageExtra_spec (e : Entry) (i : EntryId) (h : e.attempts ≤ 7) :
    imageExtra (e.imageRecord i) = some
      { touched := e.touched, faulted := e.state = .faulted, verdict := e.lastVerdict, block := e.lastBlock,
        overdueF := e.overdueFunction, overdueD := e.overdueDuration, attempts := e.attempts } := by
  have at12 : byteAt (e.imageRecord i) 12 = e.flagsByte := by
    simp only [Entry.imageRecord, Entry.writtenPart, beBytes_four, List.append_assoc]
    rfl
  have hs : byteAt (e.imageRecord i) 28 = if e.state = .faulted then 6 else 0 := by
    simp only [Entry.imageRecord, List.append_assoc]
    exact byteAt_front (off := 28) 0 (by simp)
  have hh (k : Nat) : byteAt (e.imageRecord i) (48 + k) = byteAt e.historyPart k := by
    unfold Entry.imageRecord
    exact byteAt_front (off := 48) k (by simp)
  obtain ⟨_, _, _, b3⟩ := bits4_getLsbD e.locked e.barred e.held e.touched
  obtain ⟨o0, o1, _, _⟩ := bits4_getLsbD e.overdueFunction e.overdueDuration false false
  have hv : imageVerdict (natAt (e.imageRecord i) 48 1) (natAt (e.imageRecord i) 49 1) = some e.lastVerdict := by
    rw [natAt_one, natAt_one, hh 0, hh 1]
    unfold Entry.historyPart
    cases e.lastVerdict with
    | none => rfl
    | some p =>
      obtain ⟨v, k⟩ := p
      cases v <;> cases k <;> rfl
  have hb : imageBlock (natAt (e.imageRecord i) 50 1) = some e.lastBlock := by
    rw [natAt_one, hh 2]
    have : byteAt e.historyPart 2 = blockField e.lastBlock := byteAt_front (off := 2) 0 (by simp)
    rw [this]
    cases e.lastBlock with
    | none => rfl
    | some r => cases r <;> rfl
  have h3 : byteAt e.historyPart 3 = bits4 e.overdueFunction e.overdueDuration false false :=
    byteAt_front (off := 2) 1 (by simp)
  have h4 : byteAt e.historyPart 4 = byteOf e.attempts := byteAt_front (off := 2) 2 (by simp)
  unfold imageExtra
  rw [hv, hb]
  simp only [natAt_one, hs, hh 4, hh 3, bitAt, at12, h3, h4, toNat_byteOf (by omega : e.attempts < 256), o0, o1]
  rw [if_pos ⟨by split <;> simp, h⟩]
  simp only [Option.some.injEq, ImageExtra.mk.injEq]
  refine ⟨b3, by split <;> simp_all, trivial, trivial, trivial, trivial, trivial⟩

/-- Giving the entry just written its extra fields. -/
theorem addExtra_setEntry (s : State) (i : EntryId) (e : Entry) (x : ImageExtra) :
    (s.setEntry i e).addExtra i.val x = s.setEntry i (if e.inUse then e.withExtra x else e) := by
  have hi := i.isLt
  unfold State.addExtra
  rw [dif_pos hi]
  have he : (s.setEntry i e).entry ⟨i.val, hi⟩ = e := by simp [State.entry, State.setEntry]
  rw [he]
  split
  · simp [State.setEntry]
  · rfl

/-- The load of a MAP record gives its entry as saved (R21). -/
theorem loadRecord_map (s : State) (e : Entry) (i : EntryId) (h : entryOk e) (ht : TimesFit e)
    (hf : s.entry i = Entry.free)
    (hu : e.inUse = true → ∀ j, j ≠ i → (s.entry j).inUse = true →
      (s.entry j).cln ≠ e.cln ∧ ((s.entry j).line ≠ e.line ∨ (s.entry j).node ≠ e.node)) :
    s.loadRecord .map (e.imageRecord i) = some (s.setEntry i (loadedEntry e)) := by
  have hi := i.isLt
  have hr := imageMapRecord_spec e i h ht
  have hx : natAt (e.imageRecord i) 0 1 = i.val := congrArg MapRecord.index hr
  obtain ⟨⟨h1, h2, h3⟩, h4, h5, h6, h7⟩ := h
  have hl := e.line.isLt
  have hg := e.group.isLt
  have hb := e.battery.isLt
  have hv : (wholeRecord e i).valueBad Entry.free = false := by
    cases hu' : e.inUse with
    | false => simp [MapRecord.valueBad, wholeRecord, hu']
    | true =>
      obtain ⟨⟨c1, c2⟩, n1, n2⟩ := h6 hu'
      simp [MapRecord.valueBad, MapRecord.identityBad, wholeRecord, hu']
      omega
  have hd : s.duplicates i (wholeRecord e i) = false := by
    cases hu' : e.inUse with
    | false => simp [State.duplicates, wholeRecord, hu']
    | true =>
      simp only [State.duplicates, wholeRecord, hu', Bool.true_and, List.any_eq_false, Bool.and_eq_true, bne_iff_ne,
        not_and]
      intro j _ hj
      unfold Entry.clashes
      cases hj' : (s.entry j).inUse with
      | false => simp
      | true =>
        obtain ⟨k1, k2⟩ := hu hu' j hj hj'
        simp [k1]
        intro hl'
        rcases k2 with k2 | k2
        · exact absurd (Fin.ext hl') k2
        · exact k2
  have hc : s.mapCheck i (wholeRecord e i) = none := by
    have hy : (wholeRecord e i).busy Entry.free = false := rfl
    simp [State.mapCheck, hf, hv, hy, hd]
  have hk : s.takeMap (wholeRecord e i) = .ok (s.setEntry i ((wholeRecord e i).applied Entry.free)) := by
    unfold State.takeMap
    rw [dif_pos (show (wholeRecord e i).index < 240 from hi)]
    show (match s.mapCheck i (wholeRecord e i) with
      | some code => Except.error code
      | none => Except.ok (s.setEntry i ((wholeRecord e i).applied (s.entry i)))) = _
    rw [hc, hf]
  simp only [State.loadRecord, State.loadMap, hr, imageExtra_spec e i h5, hk, hx]
  refine (congrArg some (addExtra_setEntry s i _ _)).trans ?_
  congr 2
  cases hu' : e.inUse with
  | false => rw [h7 hu']; rfl
  | true =>
    have hro : roundRated e.rated = e.rated := by
      unfold roundRated
      rw [if_neg (by omega), if_neg (by omega)]
      omega
    obtain ⟨inUse, cln, line, node, group, battery, rated, locked, barred, held, touched, state, a, b, c, d, f, g, k,
      m⟩ := e
    simp only at hu' hro hl hg hb
    subst hu'
    simp [wholeRecord, MapRecord.applied, MapRecord.creates, MapRecord.created, Entry.free, Entry.withExtra,
      loadedEntry, lineOf, groupIdOf, batteryOf, hl, hg, hb, hro]

/-! ### Whole tables -/

/-- Records that each load, in order. -/
theorem loadRecords_chain (t : Table) (rec : Nat → List Byte) (g : Nat → State) (rest : List Byte) (n : Nat) :
    ∀ k, (∀ j, k ≤ j → j < k + n → (rec j).length = t.readLength ∧ (g j).loadRecord t (rec j) = some (g (j + 1))) →
      loadRecords t n ((List.range' k n).flatMap rec ++ rest) (g k) = some (g (k + n), rest) := by
  induction n with
  | zero => intro k _; rfl
  | succ n ih =>
    intro k h
    obtain ⟨h1, h2⟩ := h k (Nat.le_refl k) (by omega)
    have ih' := ih (k + 1) (fun j hj hj' => h j (by omega) (by omega))
    have e : k + 1 + n = k + (n + 1) := by omega
    rw [e] at ih'
    simp only [List.range'_succ, List.flatMap_cons, List.append_assoc, loadRecords]
    rw [if_neg (by simp; omega), ← h1, List.take_left, List.drop_left, h2]
    exact ih'

/-- A table whose records each load. -/
theorem loadTable_chain (t : Table) (rec : Nat → List Byte) (g : Nat → State) (rest : List Byte) (n : Nat)
    (hn : n < 256)
    (h : ∀ j, j < n → (rec j).length = t.readLength ∧ (g j).loadRecord t (rec j) = some (g (j + 1))) :
    loadTable t (tableHead t n ++ ((List.range n).flatMap rec ++ rest)) (g 0) = some (g n, rest) := by
  have hc : (byteOf t.code).toNat = t.code := by cases t <;> rfl
  have := loadRecords_chain t rec g rest n 0 (fun j _ hj => h j (by omega))
  rw [← List.range_eq_range', Nat.zero_add] at this
  simp only [loadTable, tableHead, List.cons_append, List.nil_append, hc, if_true, toNat_byteOf hn]
  exact this

/-- A vector whose first `k` values are taken from another. -/
def firstOf {α : Type} {n : Nat} (k : Nat) (new old : Vector α n) : Vector α n :=
  Vector.ofFn fun i => if i.val < k then new[i] else old[i]

theorem firstOf_zero {α : Type} {n : Nat} (new old : Vector α n) : firstOf 0 new old = old := by
  apply Vector.ext; intro i hi; simp [firstOf]

theorem firstOf_all {α : Type} {n : Nat} (new old : Vector α n) : firstOf n new old = new := by
  apply Vector.ext; intro i hi; simp [firstOf]

theorem firstOf_set {α : Type} {n : Nat} (k : Fin n) (new old : Vector α n) :
    (firstOf k.val new old).set k new[k] = firstOf (k.val + 1) new old := by
  apply Vector.ext; intro i hi
  by_cases h : k.val = i
  · subst h; simp [firstOf]
  · simp only [firstOf, Vector.getElem_set, Vector.getElem_ofFn, h, if_false, Fin.getElem_fin]
    have : i < k.val + 1 ↔ i < k.val := by omega
    simp only [this]

theorem firstOf_get {α : Type} {n : Nat} (k : Fin n) (new old : Vector α n) : (firstOf k.val new old)[k] = old[k] := by
  simp [firstOf]

theorem load_policy (v s : State) (rest : List Byte) :
    loadTable .policy (v.tableRecords .policy ++ rest) s = some ({ s with policy := v.policy }, rest) := by
  have h := loadTable_chain .policy (v.readRecord .policy)
    (fun k => { s with policy := firstOf k v.policy s.policy }) rest 8 (by decide)
    (fun j hj => ⟨by simp [State.readRecord, hj]; rfl, by
      rw [loadRecord_policy v _ ⟨j, hj⟩]
      exact congrArg (fun p => some ({ s with policy := p } : State)) (firstOf_set ⟨j, hj⟩ v.policy s.policy)⟩)
  simp only [firstOf_zero, firstOf_all] at h
  rw [State.tableRecords, List.append_assoc]
  exact h

theorem load_criteria (v s : State) (rest : List Byte) (hv : TablesInRange v) :
    loadTable .criteria (v.tableRecords .criteria ++ rest) s = some ({ s with criteria := v.criteria }, rest) := by
  have h := loadTable_chain .criteria (v.readRecord .criteria)
    (fun k => { s with criteria := firstOf k v.criteria s.criteria }) rest 16 (by decide)
    (fun j hj => ⟨by simp [State.readRecord, hj]; rfl, by
      rw [loadRecord_criteria v _ ⟨j, hj⟩ (hv.2.2.1 ⟨j, hj⟩)]
      exact congrArg (fun p => some ({ s with criteria := p } : State)) (firstOf_set ⟨j, hj⟩ v.criteria s.criteria)⟩)
  simp only [firstOf_zero, firstOf_all] at h
  rw [State.tableRecords, List.append_assoc]
  exact h

theorem load_bridge (v s : State) (rest : List Byte) (hv : TablesInRange v) (hp : s.passState = .idle)
    (hl : s.plan = []) (hn : s.noticePending = false) (ho : s.noticeOwed = false) :
    loadTable .bridge (v.tableRecords .bridge ++ rest) s = some ({ s with settings := v.settings }, rest) := by
  have h := loadTable_chain .bridge (v.readRecord .bridge)
    (fun k => if k = 0 then s else { s with settings := v.settings }) rest 1 (by decide)
    (fun j hj => ⟨by simp [State.readRecord, State.bridgeRecord]; rfl, by
      obtain rfl : j = 0 := by omega
      exact loadRecord_bridge v s hv.2.2.2.1 hp hl hn ho⟩)
  rw [State.tableRecords, List.append_assoc]
  exact h

/-- Every line with the settings of another state. -/
def withLineSettings (v s : State) (k : Nat) : State :=
  { s with lines := firstOf k (Vector.ofFn fun n => { s.line n with settings := (v.line n).settings }) s.lines }

theorem load_line (v s : State) (rest : List Byte) (hv : TablesInRange v) :
    loadTable .line (v.tableRecords .line ++ rest) s =
      some ({ s with lines := Vector.ofFn fun n => { s.line n with settings := (v.line n).settings } }, rest) := by
  have h := loadTable_chain .line (v.readRecord .line)
    (withLineSettings v s) rest 6 (by decide)
    (fun j hj => ⟨by simp [State.readRecord, hj, LineSettings.record]; rfl, by
      rw [loadRecord_line v _ ⟨j, hj⟩ (hv.2.1 ⟨j, hj⟩)]
      have hg : (withLineSettings v s j).line ⟨j, hj⟩ = s.line ⟨j, hj⟩ := firstOf_get ⟨j, hj⟩ _ _
      rw [hg]
      have := firstOf_set ⟨j, hj⟩ (Vector.ofFn fun n => { s.line n with settings := (v.line n).settings }) s.lines
      simp only [Fin.getElem_fin, Vector.getElem_ofFn] at this
      exact congrArg some (congrArg (fun p => ({ s with lines := p } : State)) this)⟩)
  simp only [withLineSettings, firstOf_zero, firstOf_all] at h
  rw [State.tableRecords, List.append_assoc]
  exact h
theorem flatMap_finRange {α : Type} {n : Nat} (f : Nat → List α) (g : Fin n → List α) (h : ∀ i : Fin n, g i = f i.val) :
    (List.finRange n).flatMap g = (List.range n).flatMap f := by
  have e : List.range n = (List.finRange n).map Fin.val := by
    apply List.ext_getElem <;> simp
  rw [e, List.flatMap_map, funext h]

/-- The head of a table stands before its first record. -/
theorem flatMap_headed {α : Type} {n : Nat} (head : List α) (f : Fin (n + 1) → List α) :
    (List.finRange (n + 1)).flatMap (fun i => (if i = 0 then head else []) ++ f i) =
      head ++ (List.finRange (n + 1)).flatMap f := by
  rw [List.finRange_succ]
  simp [List.flatMap_map, Fin.succ_ne_zero]

theorem load_group (v s : State) (rest : List Byte) (hv : TablesInRange v) :
    loadTable .group (v.itemBytes .group ++ rest) s = some ({ s with groups := v.groups }, rest) := by
  let rec' (k : Nat) : List Byte := if h : k < 32 then (v.group ⟨k, h⟩).record k 0 0 0 else []
  have h := loadTable_chain .group rec'
    (fun k => { s with groups := firstOf k v.groups s.groups }) rest 32 (by decide)
    (fun j hj => ⟨by simp [rec', hj, GroupSettings.record]; rfl, by
      simp only [rec', hj, dif_pos]
      rw [loadRecord_group v _ ⟨j, hj⟩ 0 0 0 (hv.1 ⟨j, hj⟩)]
      exact congrArg (fun p => some ({ s with groups := p } : State)) (firstOf_set ⟨j, hj⟩ v.groups s.groups)⟩)
  simp only [firstOf_zero, firstOf_all] at h
  rw [State.itemBytes, List.append_assoc, flatMap_finRange rec' _ (fun g => by simp [rec'])]
  exact h

/-- The rows of another state, all written. -/
def writtenRows (v : State) : Vector CalendarRow 7 := Vector.ofFn fun d => { v.rows[d] with written := true }

theorem load_calendar (v s : State) (rest : List Byte) :
    loadTable .calendar ((List.finRange 7).flatMap (fun row => v.itemBytes (.calendar row)) ++ rest) s =
      some ({ s with rows := writtenRows v }, rest) := by
  let rec' (k : Nat) : List Byte := if h : k < 7 then v.rows[k].record k (Config.fillByte 1) else []
  have h := loadTable_chain .calendar rec'
    (fun k => { s with rows := firstOf k (writtenRows v) s.rows }) rest 7 (by decide)
    (fun j hj => ⟨by simp [rec', hj, CalendarRow.record]; rfl, by
      simp only [rec', hj, dif_pos]
      refine (loadRecord_calendar v _ ⟨j, hj⟩ _).trans ?_
      have := firstOf_set ⟨j, hj⟩ (writtenRows v) s.rows
      simp only [Fin.getElem_fin, writtenRows, Vector.getElem_ofFn] at this
      exact congrArg some (congrArg (fun p => ({ s with rows := p } : State)) this)⟩)
  simp only [firstOf_zero, firstOf_all] at h
  simp only [State.itemBytes]
  rw [flatMap_headed (n := 6), List.append_assoc, flatMap_finRange rec' _ (fun g => by simp [rec'])]
  exact h

theorem load_blackout (v s : State) (rest : List Byte) (hv : BlackoutLaw v)
    (ht : ∀ b ∈ v.blackouts, b.stop < 4294967296) (hs : s.blackouts = []) :
    loadTable .blackout (v.itemBytes .blackout ++ rest) s = some ({ s with blackouts := v.blackouts }, rest) := by
  obtain ⟨b1, b2, b3, b4⟩ := hv
  let rec' (k : Nat) : List Byte := if h : k < v.blackouts.length then v.blackouts[k].record else []
  have h := loadTable_chain .blackout rec' (fun k => { s with blackouts := v.blackouts.take k }) rest v.blackouts.length
    (by omega)
    (fun j hj => ⟨by simp [rec', hj, Blackout.record]; rfl, by
      simp only [rec', hj, dif_pos]
      have hm := List.getElem_mem hj
      have mem : ∀ x ∈ v.blackouts.take j, ∃ k, ∃ h : k < v.blackouts.length, k < j ∧ x = v.blackouts[k] := by
        intro x hx
        obtain ⟨k, hk, e⟩ := List.mem_take_iff_getElem.mp hx
        exact ⟨k, by omega, by omega, e.symm⟩
      rw [loadRecord_blackout _ _ (b4 _ hm).1 (b4 _ hm).2 (ht _ hm)]
      · simp
      · intro hx
        obtain ⟨k, hk, hkj, e⟩ := mem _ hx
        exact (List.pairwise_iff_getElem.mp b3 k j hk hj hkj) e.symm
      · simp; omega
      · intro x hx
        obtain ⟨k, hk, hkj, e⟩ := mem _ hx
        exact e ▸ (List.pairwise_iff_getElem.mp b2 k j hk hj hkj)⟩)
  have e : v.blackouts.flatMap Blackout.record = (List.range v.blackouts.length).flatMap rec' := by
    have hb : v.blackouts = (List.finRange v.blackouts.length).map v.blackouts.get := by
      apply List.ext_getElem <;> simp
    conv => lhs; rw [hb]
    rw [List.flatMap_map]
    exact flatMap_finRange rec' _ (fun g => by simp [rec'])
  have hs' : ({ s with blackouts := [] } : State) = s := by cases s; simp_all
  simp only [List.take_zero, hs', List.take_length] at h
  rw [State.itemBytes, List.append_assoc, e]
  exact h

/-- The entries of another state as an image holds them. -/
def loadedEntries (v : State) : Vector Entry 240 := Vector.ofFn fun i => loadedEntry (v.entry i)

theorem load_map (v s : State) (rest : List Byte) (hv : EntriesInRange v) (hu : MapUnique v)
    (ht : ∀ i, TimesFit (v.entry i)) (hs : s.entries = Vector.replicate 240 Entry.free) :
    loadTable .map ((List.finRange 240).flatMap (fun i => v.itemBytes (.map i)) ++ rest) s =
      some ({ s with entries := loadedEntries v }, rest) := by
  let rec' (k : Nat) : List Byte := if h : k < 240 then (v.entry ⟨k, h⟩).imageRecord ⟨k, h⟩ else []
  have he (j : Nat) (i : EntryId) : ({ s with entries := firstOf j (loadedEntries v) s.entries } : State).entry i =
      if i.val < j then loadedEntry (v.entry i) else Entry.free := by
    simp [State.entry, firstOf, loadedEntries, hs]
  have h := loadTable_chain .map rec'
    (fun k => { s with entries := firstOf k (loadedEntries v) s.entries }) rest 240 (by decide)
    (fun j hj => ⟨by simp [rec', hj]; rfl, by
      simp only [rec', hj, dif_pos]
      refine (loadRecord_map _ _ ⟨j, hj⟩ (hv _) (ht _) (by rw [he]; simp) ?_).trans ?_
      · intro hin k hk hkin
        rw [he] at hkin ⊢
        split at hkin
        · rename_i hlt
          rw [if_pos hlt]
          exact hu k ⟨j, hj⟩ hk hkin hin
        · exact absurd hkin (by decide)
      · have := firstOf_set ⟨j, hj⟩ (loadedEntries v) s.entries
        simp only [Fin.getElem_fin, loadedEntries, Vector.getElem_ofFn] at this
        exact congrArg some (congrArg (fun p => ({ s with entries := p } : State)) this)⟩)
  simp only [firstOf_zero, firstOf_all] at h
  simp only [State.itemBytes]
  rw [flatMap_headed (n := 239), List.append_assoc, flatMap_finRange rec' _ (fun g => by simp [rec'])]
  exact h

/-! ### The whole image -/

theorem savedContent (v : State) : saveOrder.flatMap v.itemBytes =
    v.tableRecords .bridge ++ (v.tableRecords .line ++ (v.tableRecords .policy ++ (v.tableRecords .criteria ++
      (v.itemBytes .group ++ ((List.finRange 7).flatMap (fun row => v.itemBytes (.calendar row)) ++
        (v.itemBytes .blackout ++ ((List.finRange 240).flatMap (fun i => v.itemBytes (.map i)) ++ []))))))) := by
  simp only [saveOrder, List.flatMap_append, List.flatMap_cons, List.flatMap_nil, List.flatMap_map, List.append_assoc,
    List.append_nil]
  rfl

/-- The tables a good image leaves on a state at its defaults. -/
def withTables (v s : State) : State :=
  { s with
    settings := v.settings, policy := v.policy, criteria := v.criteria, groups := v.groups, blackouts := v.blackouts
    rows := writtenRows v, entries := loadedEntries v
    lines := Vector.ofFn fun n => { s.line n with settings := (v.line n).settings } }

theorem loadTables_saved (v s : State) (hv : Savable v) (hp : s.passState = .idle) (hl : s.plan = [])
    (hn : s.noticePending = false) (ho : s.noticeOwed = false) (hb : s.blackouts = [])
    (he : s.entries = Vector.replicate 240 Entry.free) :
    loadTables imageTables (saveOrder.flatMap v.itemBytes) s = some (withTables v s) := by
  obtain ⟨h1, h2, h3, h4, h5, h6⟩ := hv
  rw [savedContent]
  simp only [imageTables, loadTables, load_bridge v s _ h1 hp hl hn ho, load_line v _ _ h1, load_policy,
    load_criteria v _ _ h1, load_group v _ _ h1, load_calendar]
  rw [load_blackout v _ _ h4 h5 (by exact hb)]
  simp only []
  rw [load_map v _ _ h2 h3 h6 (by exact he)]
  rfl

theorem length_flatMap_const {α : Type} (l : List α) (f : α → List Byte) (k : Nat) (h : ∀ a ∈ l, (f a).length = k) :
    (l.flatMap f).length = l.length * k := by
  induction l with
  | nil => simp
  | cons a l ih =>
    rw [List.flatMap_cons, List.length_append, h a (by simp), ih (fun b hb => h b (by simp [hb])), List.length_cons,
      Nat.succ_mul, Nat.add_comm]

/-- The contents of an image are no longer than the largest image has room for. -/
theorem length_savedContent (v : State) (h : v.blackouts.length ≤ 16) :
    9 + (saveOrder.flatMap v.itemBytes).length + 4 ≤ largestImage := by
  have fixed (t : Table) (k : Nat) (hk : ∀ j ∈ List.range t.size, (v.readRecord t j).length = k) :
      (v.tableRecords t).length = 2 + t.size * k := by
    rw [State.tableRecords, List.length_append, length_flatMap_const _ _ k hk]
    simp [tableHead]
  rw [savedContent]
  simp only [List.length_append, State.itemBytes]
  rw [fixed .bridge 27 (fun j _ => by simp [State.readRecord, State.bridgeRecord]),
    fixed .line 5 (fun j hj => by
      have hj' : j < 6 := List.mem_range.mp hj
      simp [State.readRecord, hj', LineSettings.record]),
    fixed .policy 2 (fun j hj => by
      have hj' : j < 8 := List.mem_range.mp hj
      simp [State.readRecord, hj']),
    fixed .criteria 3 (fun j hj => by
      have hj' : j < 16 := List.mem_range.mp hj
      simp [State.readRecord, hj']),
    length_flatMap_const (List.finRange 32) _ 13 (fun g _ => by simp [GroupSettings.record]),
    flatMap_headed (n := 6), flatMap_headed (n := 239), List.length_append, List.length_append,
    length_flatMap_const (List.finRange 7) _ 50 (fun g _ => by simp [CalendarRow.record]),
    length_flatMap_const (List.finRange 240) _ 53 (fun g _ => by simp),
    length_flatMap_const v.blackouts _ 9 (fun g _ => by simp [Blackout.record])]
  simp only [List.length_finRange, tableHead, List.length_cons, List.length_nil, Table.size, largestImage]
  omega

/-- Rows that are all written stay as they are. -/
theorem markRows_written (t : State) (h : ∀ d : Fin 7, t.rows[d].written = true) : t.markRows = t := by
  have e : (Vector.ofFn fun d => { t.rows[d] with written := true } : Vector CalendarRow 7) = t.rows := by
    apply Vector.ext
    intro k hk
    have hw : t.rows[k].written = true := h ⟨k, hk⟩
    simp [← hw]
  unfold State.markRows
  rw [e]

theorem withTables_written (v s : State) (d : Fin 7) : (withTables v s).rows[d].written = true := by
  have e : (withTables v s).rows = writtenRows v := rfl
  rw [e]
  simp [writtenRows]

/-- The image of a state loads to that state's tables on a device at its defaults (R21, R178, R180). -/
theorem loadImage_saved (v s : State) (hv : Savable v) (hf : s.flash = savedImage v) (hp : s.passState = .idle)
    (hl : s.plan = []) (hn : s.noticePending = false) (ho : s.noticeOwed = false) (hb : s.blackouts = [])
    (he : s.entries = Vector.replicate 240 Entry.free) : s.loadImage = some (withTables v s) := by
  have hlen := length_savedContent v hv.2.2.2.1.1
  have ht := loadTables_saved v s hv hp hl hn ho hb he
  generalize hc : saveOrder.flatMap v.itemBytes = content at hlen ht
  generalize hF : imageMarker ++ beBytes 4 content.length ++ content = image
  have hfl : s.flash = image ++ crcBytes image := by rw [hf, savedImage, hc, ← hF]; rfl
  have hw : image.length = 9 + content.length := by
    rw [← hF]
    simp [imageMarker]
    omega
  have hlt : content.length < 4294967296 := Nat.lt_of_le_of_lt (by omega) (by decide : largestImage < 4294967296)
  have hm : flashRead s.flash 0 5 = imageMarker := by
    rw [hfl, ← hF, List.append_assoc, List.append_assoc]
    exact flashRead_front imageMarker _
  have hlr : flashRead s.flash 5 4 = beBytes 4 content.length := by
    have h := flashRead_middle imageMarker (beBytes 4 content.length) (content ++ crcBytes image)
    rw [length_beBytes] at h
    rw [hfl]
    conv => lhs; rw [← hF]
    rw [List.append_assoc, List.append_assoc, hF]
    exact h
  have hil : imageLength s.flash = content.length := by
    unfold imageLength
    rw [hlr]
    exact natAt_front [] [] (by simp) rfl (by simpa using hlt)
  have hcrc : imageCrcOk s.flash = true := by
    have h1 := flashRead_front image (crcBytes image)
    have h2 := flashRead_back image (crcBytes image)
    rw [hw] at h1 h2
    rw [show (crcBytes image).length = 4 by simp [crcBytes]] at h2
    unfold imageCrcOk
    rw [hil, hfl, h1, h2]
    exact beq_self_eq_true _
  have hcon : flashRead s.flash 9 content.length = content := by
    have h := flashRead_middle (imageMarker ++ beBytes 4 content.length) content (crcBytes image)
    rw [show (imageMarker ++ beBytes 4 content.length).length = 9 by simp [imageMarker]] at h
    rw [hfl]
    conv => lhs; rw [← hF]
    rw [List.append_assoc (imageMarker ++ beBytes 4 content.length), hF]
    exact h
  have ha : 9 + content.length + 4 ≤ imageArea := Nat.le_trans hlen (Nat.le_add_right _ _)
  unfold State.loadImage
  rw [if_pos hm, hil, if_pos ha, if_pos hcrc, hcon, ht, Option.map_some]
  rw [markRows_written _ (withTables_written v s)]
/-! ### The port -/

/-- A port that opens takes CLOCK_NEEDED as a rise (R182, R184). -/
theorem openPort_spec (w : State) (h1 : w.noticePending = false) (h2 : w.noticeOwed = false) (h3 : w.tx = [])
    (h4 : w.portOpen = false) :
    w.openPort false = { w with
      portOpen := decide (w.strap ≠ 0 ∧ w.strap ≠ 255)
      noticePending := decide (w.strap ≠ 0 ∧ w.strap ≠ 255 ∧ w.settings.notifyMask.getLsbD 13 = true ∧
          w.settings.reportAddress ≠ 0) } := by
  unfold State.openPort strapOk
  by_cases a : w.strap = 0
  · cases w; simp_all
  by_cases b : w.strap = 255
  · cases w; simp_all
  simp only [ne_eq, a, b, not_false_eq_true, State.noteRise, EventFlag.isIn, EventFlag.bit, true_and, decide_true]
  cases c : w.settings.notifyMask.getLsbD 13
  · cases w; simp_all
  by_cases d : w.settings.reportAddress = 0
  · cases w; simp_all
  · cases w; simp_all [State.noticeQueued]

end Sys2Proof.Laws
end

