-- ==== Sys2Proof/Tests/Slice0.lean ====
section
/-! SUPPORT. The model's own tests: the command check, figures of the spec's worked examples, one step of each kind of
command, and for the hypotheses of every statement a state and operands that meet them. -/

namespace Sys2Proof.Tests

open Sys2Proof Sys2Proof.Machine Sys2Proof.Machine.Safety

set_option Elab.async false

/-! ### Small states -/

/-- A current test. -/
def running (k : Kind) (o : Origin) (sent : Bool) (remaining : Nat) : CurrentTest :=
  { kind := k, origin := o, startedAt := none, remaining := remaining, missed := 0, pollDue := 60,
    stopRequested := false, startSent := sent, remainingAtStart := 75 }

/-- An in-use entry on line 2, node 17, campus number 4,711, rated 60 minutes. -/
def lit (st : EntryState) : Entry :=
  { Entry.free with inUse := true, cln := 4711, line := 2, node := 17, rated := 60, state := st }

/-- The state after reset with that entry at index 5. -/
def demo (st : EntryState) : State := State.reset.setEntry 5 (lit st)

/-- An armed bridge with the clock at 3,520,000 and every slot open to every class. -/
def armedWith (st : EntryState) : State :=
  { demo st with
    clockValid := true, minute := 3520000
    rows := Vector.replicate 7 { masks := Vector.replicate 48 0xFF, written := true }
    settings := { BridgeSettings.default with schedulerEnable := true } }

/-- The Management Engine at work for a requester. -/
def who : Requester := { address := 0x020000000001, tag := 7 }

/-- A state with a management job in hand. -/
def working (s : State) (job : MgmtJob) : State := { s with mgmt := .working who job }

/-- An exchange on line 2 for node 17, its number 9, on its last attempt. -/
def exchange (w : Work) : Exchange :=
  { work := w, node := 17, bytes := [17, 9, 4, 0], allowed := 2, made := 2, badSeen := false }

/-- A head-end request for entry 5. -/
def passReq (name : ReqName) : PassRequest :=
  { name := name, node := 17, arg := ⟨0, 0, 0⟩, entry := 5, cln := 4711, tag := 3, source := 8, dest := 9, mark := none }

/-- A start of bridge origin for entry 5. -/
def startReq : ControlRequest := { kind := .startDuration 60, entry := 5, node := 17, mark := none }

/-- A LAMP request frame to the station of strap 1. -/
def lampFrame (name : ReqName) (override : Byte) : Frame :=
  { dest := stationAddressOf 1, source := 8, etype := 0x8E2D, kind := .lampRequest, tag := 3, bridge := 1,
    body := [0, 0, 0x12, 0x67, byteOf name.code, override, 0, 0, 0] }

/-- A MGMT request frame to the station of strap 1. -/
def mgmtFrame (body : List Byte) : Frame :=
  { dest := stationAddressOf 1, source := 8, etype := 0x8E2D, kind := .mgmtRequest, tag := 3, bridge := 0, body := body }

/-- The state a command leaves satisfies a test. -/
def leaves (c : Instr) (s : State) (p : State → Bool) : Bool :=
  match exec c s with
  | .next t => p t
  | _ => false

/-- The outcome is a next state. -/
def isNext (o : Host.Outcome State Fault Refusal) : Bool :=
  match o with
  | .next _ => true
  | _ => false

/-! ### The command check -/

theorem test_short_answer_refused : Instr.wellFormed (.lineAnswerReceived 0 [1, 2, 3, 4]) = false := by decide

theorem test_long_answer_refused :
    Instr.wellFormed (.lineAnswerReceived 0 [1, 2, 3, 4, 5, 6, 7, 8, 9, 10, 11, 12]) = false := by decide

theorem test_answer_lengths_taken : Instr.wellFormed (.lineAnswerReceived 0 [1, 2, 3, 4, 5]) = true ∧
    Instr.wellFormed (.lineAnswerReceived 0 [1, 2, 3, 4, 5, 6, 7, 8, 9, 10, 11]) = true ∧
    Instr.wellFormed .minuteEvent = true := by decide

theorem test_no_word_spells_a_command : decodeTableWord 16 0xFFFF = none ∧
    State.reset.withFetchWord 16 0xFFFF = State.reset := by
  exact ⟨rfl, rfl⟩

/-! ### Figures of the spec's examples -/

/-- The rows of the example of chapter 3: class 2 open on Sunday from slot 44 on and on Monday to slot 5. -/
def nightRow (f : Nat → Bool) : CalendarRow :=
  { masks := Vector.ofFn fun k => if f k.val then 4 else 0, written := true }

/-- The calendar of that example with one blackout. -/
def night (b : Blackout) : State :=
  { State.reset with
    rows := ((Vector.replicate 7 (nightRow fun _ => false)).set 6 (nightRow fun k => 44 ≤ k)).set 0
      (nightRow fun k => k ≤ 5)
    blackouts := [b] }

theorem test_span_over_midnight : (night ⟨3528100, 3528480, 12⟩).spanPermitted 3527920 180 2 = true := by
  decide +kernel

theorem test_span_meets_blackout : (night ⟨3528099, 3528480, 12⟩).spanPermitted 3527920 180 2 = false ∧
    (night ⟨3527400, 3527921, 4⟩).spanPermitted 3527920 180 2 = false := by
  decide +kernel

theorem test_retry_delays : [1, 2, 3, 4, 5, 6, 7].map (retryDelay 15) = [15, 30, 60, 120, 240, 480, 960] ∧
    retryDelay 240 7 = 1440 := by decide

theorem test_quota_of_small_groups : [0, 1, 4, 10].map (quotaOf 20) = [0, 1, 1, 2] ∧ quotaOf 0 10 = 0 := by decide

theorem test_rated_minutes_rounded : [0, 29, 30, 59, 60, 239, 240, 255].map roundRated =
    [30, 30, 30, 30, 60, 210, 240, 240] := by decide

theorem test_check_values : crc8 [0x31, 0x32, 0x33, 0x34, 0x35, 0x36, 0x37, 0x38, 0x39] = 0xF7 ∧
    crc32 [0x31, 0x32, 0x33, 0x34, 0x35, 0x36, 0x37, 0x38, 0x39] = 0xCBF43926 := by decide +kernel

theorem test_line_request_bytes : lineRequestBytes 17 9 .startDuration ⟨60, 1, 2⟩ =
    [17, 9, 5, 60, crc8 [17, 9, 5, 60]] := by decide +kernel

theorem test_set_clock_body : parseMgmt [3, 0, 0x35, 0xB6, 0] = some (.setClock 3520000) := by decide

/-! ### One step of each kind of command -/

theorem test_idle_second : isNext (step State.reset) = true := rfl

theorem test_recharge_ends : leaves (.rechargeEnd 5) (demo (.recharging 1)) (fun t => (t.entry 5).state == .ready) = true ∧
    leaves (.rechargeEnd 5) (demo (.recharging 2)) (fun t => (t.entry 5).state == .recharging 2) = true := by decide +kernel

theorem test_pass_runs : leaves .passTimerExpiry { armedWith .ready with passTimer := 4 }
      (fun t => t.passState == .walking 0) = true ∧
    leaves .walkEntry { armedWith .ready with passState := .walking 4 } (fun t => t.passState == .walking 5) = true := by
  decide +kernel

theorem test_start_exchange_accepted : leaves (.lineAnswerReceived 2 [17, 9, 1, 1, crc8 [17, 9, 1, 1]])
    ((armedWith (.pending (running .duration .scheduler true 0))).setEngine 2 (.awaiting (exchange (.control startReq)) 30))
    (fun t => (t.entry 5).state.isTesting && (t.line 2).engine == .gap) = true := by decide +kernel

theorem test_lamp_unknown : leaves .lampRequestTake { demo .ready with rx := [{ lampFrame .probe 0 with body := List.replicate 9 0 }] }
    (fun t => t.tx.length == 1 && t.rx == []) = true := by decide +kernel

theorem test_group_record_stored : leaves .groupRecord
    (working (demo .ready) (.writing .group [.group ⟨3, 200, 0, 7, 5, 99, 1000, 99, 0⟩] 0))
    (fun t => t.group 3 == ⟨100, 1, 7, 7, 3, 730, 60, 1⟩ && t.mgmt == .idle) = true := by decide +kernel

theorem test_image_save_ends : leaves (.flashOpDone [])
    { demo .ready with save := some (.readBack [1, 2, 3, 4]), flash := [9] }
    (fun t => t.flag .imageFault && t.save.isNone && t.flash == [9]) = true ∧
    leaves .saveImage { working (demo .ready) (.request .saveImage) with flash := [9] }
      (fun t => t.save == some .erasing && t.flash == []) = true := by
  decide +kernel

theorem test_due_probe_granted_at_once :
    (let s := State.pollSecond 5 (demo (.testing { running .duration .headend true 9 with pollDue := 1 }));
      (s.line 2).engine.exchange.any (fun x => x.work.isPoll) && (s.line 2).polls.isEmpty) = true := by decide +kernel

theorem test_unknown_table_write_passes_framing : mgmtLengthOk [2, 99, 17] = true ∧ mgmtLengthOk [2, 1, 17] = false ∧
    mgmtLengthOk [2, 99] = false := by decide

/-! ### Hypotheses that can be met -/

theorem test_hyps_idle_step : ({ State.reset with seconds := 58 } : State).pending = [] ∧
    ({ State.reset with seconds := 58 } : State).seconds < 59 ∧ State.reset.pending = [] ∧
    ({ armedWith .ready with seconds := 59 } : State).seconds = 59 ∧ (armedWith .ready).clockValid = true ∧
    (armedWith .ready).minute < maxMinute := by decide

theorem test_hyps_frame_of_commands : (∀ st f p, Instr.minuteEvent ≠ .powerUp st f p) ∧
    (∀ b, Instr.minuteEvent ≠ .flashOpDone b) := by
  constructor <;> intros <;> exact fun h => nomatch h

/-- The contents of an image of the tables as they are after reset. -/
def imageContents : List Byte := saveOrder.flatMap State.reset.itemBytes

/-- Header and contents of that image. -/
def imageFront : List Byte := imageHeader 13623 ++ imageContents

/-- A state whose flash holds that image. -/
def withImage : State := { State.reset with flash := imageFront ++ crcBytes imageFront }

theorem test_image_contents_length : imageContents.length = 13623 := by decide +kernel

theorem test_image_tables_load :
    (loadTables imageTables imageContents (withImage.atPowerUp 1)).isSome = true := by decide +kernel

theorem test_hyps_power_up_loads : ∃ loaded, (withImage.atPowerUp 1).loadImage = some loaded := by
  have hf : imageFront.length = 13632 := by
    rw [imageFront, List.length_append, test_image_contents_length]; rfl
  have hl : imageLength withImage.flash = 13623 := by decide +kernel
  have hm : flashRead withImage.flash 0 5 = imageMarker := by decide +kernel
  have ha : flashRead withImage.flash 0 13632 = imageFront := hf ▸ Laws.flashRead_front imageFront _
  have hb : flashRead withImage.flash 13632 4 = crcBytes imageFront :=
    hf ▸ Laws.flashRead_back imageFront (crcBytes imageFront)
  have hd : flashRead withImage.flash 9 13623 = imageContents := by
    have h := Laws.flashRead_middle (imageHeader 13623) imageContents (crcBytes imageFront)
    rw [test_image_contents_length] at h
    rwa [← List.append_assoc] at h
  have hs : 9 + 13623 + 4 ≤ imageArea := by
    unfold imageArea
    exact Nat.le_trans (by decide) (Nat.le_add_right _ _)
  have ht := test_image_tables_load
  rw [Option.isSome_iff_exists] at ht
  obtain ⟨t, ht⟩ := ht
  refine ⟨t.markRows, ?_⟩
  have e : (withImage.atPowerUp 1).flash = withImage.flash := rfl
  simp only [State.loadImage, e, hm, hl, hs, if_true, imageCrcOk, ha, hb, hd, ht, beq_self_eq_true, Option.map_some]

theorem test_hyps_power_up_without_image : State.reset.flash = [] ∧ (false = false ∨ withImage.flash = []) := by
  exact ⟨rfl, .inl rfl⟩

theorem test_hyps_minute_event : (armedWith .ready).clockValid = true ∧ (armedWith .ready).minute < maxMinute ∧
    State.reset.clockValid = false ∧ State.reset.passTimer + 1 < State.reset.settings.passInterval ∧
    (armedWith .ready).settings.passInterval ≤ ({ armedWith .ready with passTimer := 4 } : State).passTimer + 1 ∧
    (armedWith .ready).armed = true ∧ (armedWith .ready).passState = .idle ∧ State.reset.armed = false := by decide +kernel

theorem test_hyps_minute_counts : ((demo (.recharging 1)).entry 5).state = .recharging 1 ∧
    ((demo (.backoff 2)).entry 5).state = .backoff 2 ∧
    ((demo (.testing (running .duration .headend true 2))).entry 5).state = .testing (running .duration .headend true 2) ∧
    2 ≤ (running .duration .headend true 2).remaining ∧
    ((demo (.ending (running .function .headend true 0))).entry 5).state = .ending (running .function .headend true 0) ∧
    ((demo .ready).entry 5).state = .ready ∧ ((demo .faulted).entry 5).state = .faulted := by decide

theorem test_hyps_weekday : (0 ≤ 4294967295) ∧ (4294967295 : Nat) ≤ 4294967295 := by decide

theorem test_hyps_span : 1 ≤ 1 ∧ ∀ b ∈ (night ⟨3528100, 3528480, 12⟩).blackouts, b.start < b.stop := by decide

theorem test_hyps_progress : 0 < 1440 ∧ 3519000 ≤ 3520000 ∧ 3519000 ≤ 3519000 ∧ 4000 ≤ 4000 ∧ 1 ≤ 15 ∧ 15 ≤ 15 := by decide

/-- A plan list of sixteen records with one score. -/
def fullPlan : List PlanRecord :=
  (List.finRange 16).map fun k => { entry := ⟨k.val, by omega⟩, kind := .function, score := 100 }

theorem test_hyps_plan : fullPlan.Pairwise (fun a b => a.before b = true) ∧ (∀ r ∈ fullPlan, r.entry.val < 16) ∧
    fullPlan.length = 16 ∧ fullPlan.getLast? = some { entry := 15, kind := .function, score := 100 } ∧
    ([] : List PlanRecord).length < 16 := by decide

theorem test_hyps_pass_timer : (armedWith .ready).settings.passInterval ≤ ({ armedWith .ready with passTimer := 4 } : State).passTimer + 1 ∧
    (armedWith .ready).settings.schedulerEnable = true ∧ (armedWith .ready).clockValid = true ∧
    (∀ d : Fin 7, (armedWith .ready).rows[d].written = true) ∧ (armedWith .ready).passState = .idle ∧
    State.reset.settings.passInterval ≤ ({ State.reset with passTimer := 4 } : State).passTimer + 1 ∧
    State.reset.settings.schedulerEnable = false := by decide +kernel

theorem test_hyps_walk_passes_over : (armedWith .faulted).armed = true ∧
    ({ armedWith .faulted with passState := .walking 239 } : State).passState = .walking 239 ∧
    ((armedWith .faulted).entry 239).inUse = false ∧ ((armedWith .faulted).entry 5).state ≠ .ready ∧
    (5 : Nat) + 1 < 240 := by decide +kernel

theorem test_hyps_walk_evaluates : let s : State := { armedWith .ready with passState := .walking 5 }
    s.armed = true ∧ s.passState = .walking 5 ∧ (s.entry 5).inUse = true ∧ (s.entry 5).state = .ready ∧
    (s.entry 5).barred = false ∧ (s.entry 5).held = false ∧ s.inOutage (s.entry 5).line = false ∧
    (s.mainsLine (s.entry 5).line).holdOff = 0 ∧ (s.line (s.entry 5).line).engine ≠ .down := by decide +kernel

/-- A window of each kind that has opened, and both still shut. -/
def withHistory (f d : Nat) : State :=
  { armedWith .ready with passState := .walking 5 }.setEntry 5
    { lit .ready with lastFunctionEnd := some f, lastDurationEnd := some d }

theorem test_hyps_walk_candidates :
    (let s := withHistory 3519999 2000000; (s.entry 5).opens (s.group 0) .duration s.minute ≤ s.minute) ∧
    (let s := withHistory 3400000 3519999; s.minute < (s.entry 5).opens (s.group 0) .duration s.minute ∧
      (s.entry 5).opens (s.group 0) .function s.minute ≤ s.minute) ∧
    (let s := withHistory 3519999 3519999; s.minute < (s.entry 5).opens (s.group 0) .duration s.minute ∧
      s.minute < (s.entry 5).opens (s.group 0) .function s.minute) := by decide +kernel

/-- A pass at the admission of entry 5. -/
def admitting (s : State) : State :=
  { s with passState := .admitting, plan := [{ entry := 5, kind := .function, score := 300 }] }

theorem test_hyps_admission : let s := admitting (armedWith .ready)
    s.armed = true ∧ s.passState = .admitting ∧ s.plan = [{ entry := 5, kind := .function, score := 300 }] ∧
    (s.entry 5).inUse = true ∧ (s.entry 5).state = .ready ∧ (s.entry 5).barred = false ∧ (s.entry 5).held = false ∧
    s.inOutage 2 = false ∧ (s.mainsLine 2).holdOff = 0 ∧ (s.line 2).engine ≠ .down ∧
    s.spanPermitted s.minute 1 (s.group 0).occupancy = true ∧ s.outOfService 0 < s.quota 0 ∧ s.lineActive 2 < 12 ∧
    (s.line 2).control.length < 4 := by decide +kernel

theorem test_hyps_admission_busy_line : ((admitting (armedWith .ready)).setEngine 2 .gap).armed = true ∧
    (((admitting (armedWith .ready)).setEngine 2 .gap).line 2).engine ≠ .idle := by decide +kernel

/-- Twelve entries of line 2 in TESTING beside entry 5, in another group. -/
def crowded : State :=
  (List.finRange 12).foldl (fun s k => s.setEntry ⟨20 + k.val, by omega⟩
    { lit (.testing (running .function .headend true 5)) with cln := 5000 + k.val, node := 18 + k.val, group := 1 })
    (admitting (armedWith .ready))

theorem test_hyps_admission_refusals :
    ((admitting (armedWith .ready)).setEntry 5 { lit .ready with barred := true }).armed = true ∧
    (((admitting (armedWith .ready)).setEntry 5 { lit .ready with held := true }).entry 5).held = true ∧
    ((admitting (armedWith .ready)).setMains 2 { sense := .absent, outageMinutes := 0, holdOff := 0 }).inOutage 2 = true ∧
    (((admitting (armedWith .ready)).setEngine 2 .down).line 2).engine = .down ∧
    ({ admitting (armedWith .ready) with blackouts := [⟨3519999, 3520001, 0xFF⟩] } : State).spanPermitted 3520000 1 0 = false ∧
    (let s := { admitting (armedWith .ready) with groups := State.reset.groups.set 0 { GroupSettings.default with quotaPercent := 0 } };
      s.quota 0 ≤ s.outOfService 0) ∧
    12 ≤ crowded.lineActive 2 ∧ crowded.outOfService 0 < crowded.quota 0 ∧
    (let s := (admitting (armedWith .ready)).setLine 2 { State.reset.line 2 with control := List.replicate 4 startReq };
      4 ≤ (s.line 2).control.length) := by decide +kernel

theorem test_hyps_quota_respected : leaves .admission (admitting (armedWith .ready))
    (fun t => (t.entry 5).state.underTest) = true ∧ ((admitting (armedWith .ready)).entry 5).state.underTest = false := by
  decide +kernel

theorem test_hyps_poll_due : let s := demo (.testing (running .duration .headend true 9));
    let g := s.setEngine 2 .gap;
    (s.entry 5).state = .testing (running .duration .headend true 9) ∧ (g.line 2).engine ≠ .idle ∧
    (g.line 2).polls.countP (fun p => p.entry == 5) = 0 ∧
    ((g.setLine 2 { g.line 2 with polls := [⟨5, none⟩] }).line 2).polls.countP (fun p => p.entry == 5) ≠ 0 ∧
    (s.line 2).engine = .idle ∧ (s.line 2).pass = [] ∧ (s.line 2).control = [] ∧ (s.line 2).polls = [] ∧
    s.owedStop 2 = none := by decide +kernel

theorem test_hyps_remaining_out : (running .duration .headend true 1).remaining ≤ 1 ∧
    ((demo (.testing (running .duration .headend true 1))).line 2).engine ≠ .down ∧
    (((demo (.testing (running .duration .headend true 1))).setEngine 2 .down).line 2).engine = .down ∧
    State.reset.policy[5] = true ∧ ({ demo .ready with policy := Vector.replicate 8 false } : State).policy[5] = false ∧
    1 ≤ (State.reset.group 0).rechargeHours := by decide

theorem test_hyps_counters_end : ((demo (.recharging 1)).entry 5).state = .recharging 1 ∧
    ((demo (.backoff 1)).entry 5).state = .backoff 1 ∧ (demo (.backoff 1)).inOutage 2 = false ∧
    ((demo .ready).setMains 2 { sense := .present, outageMinutes := 3, holdOff := 1 }).mainsLine 2 =
      { sense := .present, outageMinutes := 3, holdOff := 1 } := by decide

theorem test_hyps_verdict_recharge : 0 < 30 ∧ Verdict.pass ≠ .abortedHeadend ∧ Verdict.pass ≠ .abortedOutage ∧
    verdictRecharge 1440 60 31 .duration .abortedOutage = 744 := by decide

/-- An open capture record of a request with mark 0. -/
def captureRecord : CaptureRecord :=
  { origin := .bridge, name := .probe, arg := ⟨0, 0, 0⟩, line := 2, node := 17, clock := none, answer := none }

/-- A state whose capture has that record open. -/
def capturing (s : State) : State :=
  { s with capture := { Capture.initial with
      target := 4711, mode := .any, action := .recordHold, state := .opened captureRecord 0, nextMark := 1 } }

/-- A stop of bridge origin for entry 5. -/
def stopReq : ControlRequest := { kind := .stopTest, entry := 5, node := 17, mark := none }

theorem test_hyps_record_verdict : let s := capturing (demo (.testing (running .duration .scheduler true 9)));
    let t := s.setLine 2 { s.line 2 with polls := [⟨5, some 0⟩], control := [{ stopReq with mark := some 0 }] };
    (s.entry 5).state.test = some (running .duration .scheduler true 9) ∧
    (demo .ready).halts .short = true ∧ (demo .ready).halts .pass = false ∧
    t.capture.state = .opened captureRecord 0 ∧ (∃ p ∈ (t.line 2).polls, p.entry = 5 ∧ p.mark = some 0) ∧
    ∃ c ∈ (t.line 2).control, c.kind = .stopTest ∧ c.entry = 5 ∧ c.mark = some 0 := by
  decide

/-- Entry 5 with an exchange that awaits its answer. -/
def awaiting (st : EntryState) (w : Work) : State := (armedWith st).setEngine 2 (.awaiting (exchange w) 30)

theorem test_hyps_accepted : let u := running .duration .scheduler true 0
    let s := awaiting (.pending u) (.control startReq);
    let p := awaiting (.pending { u with stopRequested := true }) (.passThrough (passReq .startDuration));
    (s.line 2).engine = .awaiting (exchange (.control startReq)) 30 ∧
    (exchange (.control startReq)).work.name = .startDuration ∧ (exchange (.control startReq)).node < 256 ∧
    s.findPlace 2 17 = some 5 ∧ (s.entry 5).state = .pending u ∧ u.startSent = true ∧ u.stopRequested = false ∧
    (p.line 2).engine = .awaiting (exchange (.passThrough (passReq .startDuration))) 30 ∧
    (exchange (.passThrough (passReq .startDuration))).work.name = .startDuration ∧ p.findPlace 2 17 = some 5 ∧
    (p.entry 5).state = .pending { u with stopRequested := true } := by decide +kernel

theorem test_hyps_report : let u := running .duration .scheduler true 9
    let s := awaiting (.testing u) (.poll ⟨5, none⟩);
    let e := awaiting (.ending u) (.passThrough (passReq .probe));
    (s.line 2).engine = .awaiting (exchange (.poll ⟨5, none⟩)) 30 ∧ (exchange (.poll ⟨5, none⟩)).work.name = .probe ∧
    (exchange (.poll ⟨5, none⟩)).node < 256 ∧ s.findPlace 2 17 = some 5 ∧ (s.entry 5).state = .testing u ∧
    u.kind = .duration ∧ (running .function .scheduler true 9).kind = .function ∧ (4095 : Nat) ≤ 4095 ∧
    (e.line 2).engine = .awaiting (exchange (.passThrough (passReq .probe))) 30 ∧ e.findPlace 2 17 = some 5 ∧
    (e.entry 5).state = .ending u ∧ ((3 : Byte) = 1 ∨ (3 : Byte) = 2 ∨ (3 : Byte) = 3) := by decide +kernel

theorem test_hyps_stop_answer : let u := running .function .headend true 0
    let s := awaiting (.ending u) (.control stopReq);
    let t := awaiting (.testing u) (.passThrough (passReq .stopTest));
    (s.line 2).engine = .awaiting (exchange (.control stopReq)) 30 ∧ (exchange (.control stopReq)).work.name = .stopTest ∧
    s.findPlace 2 17 = some 5 ∧ (s.entry 5).state = .ending u ∧
    (exchange (.passThrough (passReq .stopTest))).work.name = .stopTest ∧ t.findPlace 2 17 = some 5 ∧
    (t.entry 5).state = .testing u := by decide +kernel

/-- The last verdict an answer with some fields leaves entry 5. -/
def verdictOf (st : EntryState) (w : Work) (f : List Byte) : Option (Verdict × Kind) :=
  match exec (heardAnswer 2 (exchange w) f) (awaiting st w) with
  | .next t => (t.entry 5).lastVerdict
  | _ => none

theorem test_reports_judged : let u := running .duration .scheduler true 9
    let poll : Work := .poll ⟨5, none⟩
    verdictOf (.testing u) poll (reportFields 4 1 60 4095 true) = some (.pass, .duration) ∧
    verdictOf (.ending u) (.control stopReq) [2, 2, 0] = some (.noVerdict, .duration) := by decide +kernel

theorem test_hyps_request_sent :
    ((((demo .ready).setEngine 2 (.sending (exchange (.control startReq)))).line 2).engine =
      .sending (exchange (.control startReq))) ∧
    (((demo .ready).setEngine 2 .gap).line 2).engine = .gap ∧ ((demo .ready).setEngine 2 .gap).owedStop 2 = none ∧
    (((demo .ready).setEngine 2 .gap).line 2).pass = [] := by decide +kernel

/-- Line 2 in GAP with work for every client and a pointer. -/
def gapLine (c : Client) : State :=
  (demo .ready).setLine 2 { State.reset.line 2 with
    engine := .gap, pass := [passReq .probe], control := [startReq], polls := [⟨5, none⟩], pointer := c }

theorem test_hyps_gap_end : ((gapLine .poll).line 2).engine = .gap ∧ (gapLine .poll).owedStop 2 = none ∧
    ((gapLine .poll).line 2).pass = [passReq .probe] ∧ ((gapLine .poll).line 2).pointer = .poll ∧
    ((gapLine .passThrough).line 2).control = [startReq] ∧ ((gapLine .passThrough).line 2).pointer = .passThrough ∧
    ((gapLine .control).line 2).polls = [⟨5, none⟩] ∧ ((gapLine .control).line 2).pointer = .control ∧
    ((passReq .probe).name == .startFunction || (passReq .probe).name == .startDuration) = false ∧
    (startReq.kind != .stopTest) = true ∧
    (let s := (gapLine .passThrough).setEntryState 5 (.pending (running .duration .scheduler false 0));
      (s.entry startReq.entry).state = .pending (running .duration .scheduler false 0) ∧ s.owedStop 2 = none) := by
  decide +kernel

theorem test_hyps_attempts : let s := awaiting .ready (.passThrough (passReq .setParam))
    let x := exchange (.passThrough (passReq .setParam));
    (s.line 2).engine = .awaiting x 30 ∧ answerLength (byteAt [17, 9, 1, 1] 2).toNat = some 5 ∧
    (byteAt [18, 9, 1, 1] 0).toNat ≠ x.node ∧ byteAt [17, 8, 1, 1] 1 ≠ x.number ∧
    (0 : Byte) ≠ crc8 [17, 9, 1, 1] ∧ x.allowed ≤ x.made ∧ (s.line 2).backlog = [] ∧ s.tx.length < 16 ∧
    ({ x with made := 1 } : Exchange).made < x.allowed ∧ x.node = (passReq .setParam).node ∧ x.node < 256 ∧
    s.findPlace 2 17 = some 5 ∧ (s.entry 5).cln = (passReq .setParam).cln := by decide +kernel

theorem test_hyps_fields : AdmittedFields .setParam [6, 1] ∧ ¬AdmittedFields .setParam [6, 3] ∧
    answerLength (byteAt [6, 3] 0).toNat = some (List.length ([6, 3] : List Byte) + 3) ∧
    AdmittedFields .probe (reportFields 4 1 60 4095 true) ∧ AdmittedFields .stopTest [2, 1, 255] ∧
    ¬AdmittedFields .startFunction [1, 0] := by
  refine ⟨.inl rfl, by unfold AdmittedFields; decide, rfl, ?_, .inl ⟨255, rfl⟩, by unfold AdmittedFields; decide⟩
  exact ⟨60, true, .inr (.inr (.inr ⟨1, .inl rfl, .inr ⟨4095, by decide, rfl⟩⟩))⟩

theorem test_hyps_recorded_request : let r := { passReq .setParam with mark := some 0 }
    let s := capturing (awaiting .ready (.passThrough r));
    s.capture.state = .opened captureRecord 0 ∧ (exchange (.passThrough r)).work.mark = some 0 ∧
    (exchange (.passThrough r)).work.name ≠ .probe ∧ (exchange (.passThrough r)).work.name ≠ .stopTest ∧
    (∀ i, s.findPlace 2 17 = some i → (s.entry i).state.test = none) ∧
    leaves (heardAnswer 2 (exchange (.passThrough r)) [6, 1]) s
      (fun t => (t.entry 5).held && (t.entry 5).touched && t.flag .captureHit) = true := by
  refine ⟨rfl, rfl, by decide, by decide, fun i h => ?_, by decide +kernel⟩
  have e : (capturing (awaiting .ready (.passThrough { passReq .setParam with mark := some 0 }))).findPlace 2 17 =
    some 5 := by decide +kernel
  rw [e] at h; cases h; decide

theorem test_hyps_failed_start : let s := awaiting (.pending (running .duration .scheduler true 0)) (.control startReq);
    (s.line 2).engine = .awaiting (exchange (.control startReq)) 30 ∧
    (exchange (.control startReq)).allowed ≤ (exchange (.control startReq)).made ∧
    (exchange (.control startReq)).work.name = .startDuration ∧ (exchange (.control startReq)).node < 256 ∧
    s.findPlace 2 17 = some 5 ∧ (s.entry 5).state = .pending (running .duration .scheduler true 0) ∧
    (running .duration .scheduler true 0).startSent = true ∧
    min ((s.entry 5).attempts + 1) s.settings.maxAttempts ≠ s.settings.maxAttempts ∧ s.policy[0] = false ∧
    (let t : State := { s with settings := { s.settings with maxAttempts := 1 }, policy := Vector.replicate 8 true };
      min ((t.entry 5).attempts + 1) t.settings.maxAttempts = t.settings.maxAttempts ∧ t.policy[0] = true ∧
      t.policy[1] = true) := by
  decide +kernel

theorem test_hyps_missed : let u := running .duration .scheduler true 9
    let s := awaiting (.testing u) (.poll ⟨5, none⟩);
    let h := awaiting (.testing u) (.passThrough (passReq .probe));
    (s.line 2).engine = .awaiting (exchange (.poll ⟨5, none⟩)) 30 ∧ s.findPlace 2 17 = some 5 ∧
    (s.entry 5).state = .testing u ∧ u.missed < 2 ∧ 2 ≤ ({ u with missed := 2 } : CurrentTest).missed ∧
    (h.line 2).engine = .awaiting (exchange (.passThrough (passReq .probe))) 30 ∧ (passReq .probe).name = .probe ∧
    ((awaiting (.ending u) (.poll ⟨5, none⟩)).entry 5).state = .ending u ∧
    leaves (.replyWindowClose 2 false) (awaiting (.testing { u with missed := 2 }) (.poll ⟨5, none⟩))
      (fun t => t.flag .noContact) = true := by decide +kernel

/-- Line 2 in a sense state. -/
def sensing (st : EntryState) (s : SenseState) : State :=
  (demo st).setMains 2 { sense := s, outageMinutes := 45, holdOff := 0 }

theorem test_hyps_sense : ((sensing .ready .present).mainsLine 2).sense = .present ∧
    ((sensing .ready (.lossPending 1)).mainsLine 2).sense = .lossPending 1 ∧
    ((sensing .ready .absent).mainsLine 2).sense = .absent ∧
    ((sensing .ready (.restorePending 1)).mainsLine 2).sense = .restorePending 1 := by decide

theorem test_hyps_loss : let u := running .duration .scheduler true 9;
    ((sensing (.testing u) (.lossPending 1)).entry 5).inUse = true ∧
    ((sensing (.testing u) (.lossPending 1)).entry 5).line = 2 ∧
    ((sensing (.testing u) (.lossPending 1)).entry 5).state = .testing u ∧
    ((sensing (.pending u) (.lossPending 1)).entry 5).state = .pending u ∧ u.startSent = true ∧
    (running .function .scheduler false 0).startSent = false ∧ (running .function .headend false 0).origin = .headend ∧
    State.reset.policy[6] = false := by decide

theorem test_hyps_restore : ((sensing (.backoff 3) (.restorePending 1)).entry 5).state = .backoff 3 ∧
    ((sensing (.recharging 3) (.restorePending 1)).entry 5).state = .recharging 3 ∧
    ((sensing .faulted (.restorePending 1)).entry 5).state = .faulted ∧
    ((sensing .ready (.restorePending 1)).entry 5).line = 2 := by decide

theorem test_hyps_supply : ((demo .ready).line 2).engine ≠ .down ∧
    (let s := (demo .ready).setLine 2 { State.reset.line 2 with
        engine := .down, supplyOn := false, retryTimer := some 10 };
      (s.line 2).engine = .down ∧ (s.line 2).supplyOn = false) ∧
    (let s := (demo .ready).setLine 2 { State.reset.line 2 with engine := .down, senseDue := true };
      (s.line 2).engine = .down ∧ (s.line 2).senseDue = true) := by decide

/-- Line 2 with requests of every kind waiting and one in flight. -/
def loaded (st : EntryState) (w : Work) : State :=
  (demo st).setLine 2 { State.reset.line 2 with
    engine := .awaiting (exchange w) 30, pass := [passReq .startDuration], control := [startReq, stopReq],
    polls := [⟨5, none⟩] }

theorem test_hyps_supply_fault : let u := running .duration .scheduler false 0
    let s := loaded (.pending u) (.control stopReq);
    (s.entry 5).state = .pending u ∧ u.startSent = false ∧
    (∃ r ∈ (s.line 2).pass, r.name.isStart = true ∧ r.entry = 5) ∧
    (∃ c ∈ (s.line 2).control, c.kind ≠ .stopTest ∧ c.entry = 5) ∧
    (s.line 2).engine.exchange = some (exchange (.control stopReq)) ∧ (s.line 2).control.length < 4 ∧
    (let p := loaded (.pending { u with startSent := true }) (.control startReq);
      ({ u with startSent := true } : CurrentTest).startSent = true ∧
      (p.line 2).engine.exchange = some (exchange (.control startReq)) ∧
      (exchange (.control startReq)).work.name.isStart = true ∧ p.findPlace 2 17 = some 5) ∧
    (let t := loaded (.testing u) (.poll ⟨5, none⟩);
      (t.line 2).engine.exchange = some (exchange (.poll ⟨5, none⟩)) ∧ t.findPlace 2 17 = some 5 ∧
      (t.entry 5).state = .testing u) := by decide +kernel

theorem test_hyps_line_abort :
    (let s := working (awaiting (.pending (running .duration .scheduler true 0)) (.control startReq))
        (.request (.lineAbort 2));
      s.mgmt = .working who (.request (.lineAbort 2)) ∧
      (s.line 2).engine.exchange = some (exchange (.control startReq)) ∧
      (exchange (.control startReq)).work.name.isStart = true ∧
      s.findPlace 2 17 = some 5 ∧ (s.entry 5).state = .pending (running .duration .scheduler true 0) ∧
      s.tx.length < 15) ∧ ((demo .ready).line 2).engine.exchange = none ∧ 5 < 6 ∧
    (let s := working (awaiting .ready (.passThrough (passReq .probe))) (.request (.lineAbort 2));
      (s.line 2).engine.exchange = some (exchange (.passThrough (passReq .probe))) ∧ (s.line 2).backlog = [] ∧
      ((s.joinBacklog 2 (lampFrame .probe 0)).line 2).backlog ≠ []) ∧
    (let s := working (loaded (.testing (running .duration .scheduler true 9)) (.control stopReq))
        (.request (.lineAbort 2));
      (s.line 2).engine.exchange = some (exchange (.control stopReq)) ∧ (s.line 2).control.length < 4) ∧
    (let s := working (loaded (.testing (running .duration .scheduler true 9)) (.poll ⟨5, none⟩))
        (.request (.lineAbort 2));
      (s.line 2).engine.exchange = some (exchange (.poll ⟨5, none⟩)) ∧ s.findPlace 2 17 = some 5 ∧
      (s.entry 5).state = .testing (running .duration .scheduler true 9)) := by decide +kernel

theorem test_hyps_resets : (working (demo .ready) (.request (.lineReset 5))).mgmt = .working who (.request (.lineReset 5)) ∧
    (5 < 6) ∧ (working (demo .ready) (.request .bridgeReset)).mgmt = .working who (.request .bridgeReset) ∧
    (let u := running .duration .headend true 5
      let r := { passReq .probe with mark := some 0 }
      let s := capturing (working (loaded (.testing u) (.passThrough r)) (.request (.lineReset 2)));
      s.mgmt = .working who (.request (.lineReset 2)) ∧ s.tx.length < 16 ∧
      s.capture.state = .opened captureRecord 0 ∧ (some 0, 5) ∈ (s.line 2).resetMarks ∧
      (s.line 2).resetPass = [r, passReq .startDuration] ∧ (s.entry 5).inUse = true ∧ (s.entry 5).line = 2 ∧
      (s.entry 5).state = .testing u ∧
      leaves .lineReset s (fun t => (t.line 2).backlog == [r, passReq .startDuration].map (outcomeFrame s .aborted)) = true) := by
  decide +kernel

theorem test_hyps_arrival : let g := lampFrame .probe 0
    State.reset.portOpen = true ∧ g.etype = State.reset.settings.lightingType ∧ State.reset.admits g.dest = true ∧
    (g.bridge = 0 ∨ g.bridge = State.reset.strap) ∧ g.kind = .lampRequest ∧ g.body.length = 9 ∧
    State.reset.rx.length < 16 ∧ 16 ≤ ({ State.reset with rx := List.replicate 16 g } : State).rx.length ∧
    (mgmtFrame [16]).kind = .mgmtRequest ∧ mgmtLengthOk (mgmtFrame [16]).body = true ∧
    (mgmtFrame [16]).dest = stationAddressOf State.reset.strap ∧
    (∀ f : TrunkFrame, f = ⟨false, 0, 0, 0, []⟩ → f.fcsAgrees = false) := by
  refine ⟨?_, ?_, ?_, ?_, ?_, ?_, ?_, ?_, ?_, ?_, ?_, fun f h => h ▸ rfl⟩ <;> decide

/-- A full transmit queue of answers. -/
def fullTx : List Frame := List.replicate 16 { lampFrame .probe 0 with kind := .lampAnswer }

/-- A full transmit queue with the link up, and the rotation at a waiter. -/
def sendingAt (w : Waiter) : State := { demo .ready with tx := fullTx, rotation := w }

theorem test_hyps_frame_sent : State.reset.tx = [] ∧ State.reset.portOpen = true ∧ State.reset.linkUp = true ∧
    fullTx.tail.length = 15 ∧ ({ lampFrame .probe 0 with kind := .lampAnswer } : Frame).isNotice = false ∧
    ∀ w, (sendingAt .lampPath).waits w = false := by
  refine ⟨rfl, rfl, rfl, rfl, rfl, fun w => ?_⟩
  cases w with
  | backlog n => revert n; decide
  | _ => decide

/-- Every waiter waits, and each is the first after the one before it in the rotation. -/
theorem test_hyps_rotation : let s : State :=
      { (sendingAt .lampPath).joinBacklog 4 (lampFrame .probe 0) with
        rx := [mgmtFrame [16], lampFrame .probe 0], lampWaiting := true, noticePending := true,
        mgmt := .answering (mgmtFrame []) };
    (s.waits .management = true ∧ ∀ v, s.waits v = true → turn .lampPath .management ≤ turn .lampPath v) ∧
    (s.waits (.backlog 4) = true ∧ ∀ v, s.waits v = true → turn .management (.backlog 4) ≤ turn .management v) ∧
    (s.waits .eventUnit = true ∧ ∀ v, s.waits v = true → turn (.backlog 4) .eventUnit ≤ turn (.backlog 4) v) ∧
    (s.waits .lampPath = true ∧ ∀ v, s.waits v = true → turn .eventUnit .lampPath ≤ turn .eventUnit v) ∧
    (s.line 4).backlog = [lampFrame .probe 0] := by
  refine ⟨⟨rfl, fun v => ?_⟩, ⟨rfl, fun v => ?_⟩, ⟨rfl, fun v => ?_⟩, ⟨rfl, fun v => ?_⟩, rfl⟩ <;>
  · cases v with
    | backlog n => revert n; decide
    | _ => decide

theorem test_hyps_lamp_path_waits : State.reset.lampOutcome (lampFrame .probe 0) = .answer .unknown := by decide +kernel

theorem test_hyps_placements : 16 ≤ ({ State.reset with tx := fullTx } : State).tx.length ∧ State.reset.tx.length < 16 ∧
    ({ State.reset with noticePending := true } : State).noticePending = true ∧
    ((State.reset.joinBacklog 2 (lampFrame .probe 0)).line 2).backlog = [lampFrame .probe 0] := by decide

theorem test_hyps_lamp_refused : let f := lampFrame .startDuration 0;
    (∀ g ∈ [mgmtFrame [16]], g.kind ≠ .lampRequest) ∧ f.kind = .lampRequest ∧ State.reset.lampWaiting = false ∧
    ReqName.ofCode f.lampCode = some .startDuration ∧ ReqName.startDuration ≠ .setRest ∧
    State.reset.findCln f.lampCln = none ∧ f.dest = stationAddressOf State.reset.strap ∧
    ({ f with dest := groupAddress } : Frame).dest ≠ stationAddressOf State.reset.strap ∧
    (demo .ready).findCln f.lampCln = some 5 ∧ f.lampOverride = false ∧ ((demo .ready).entry 5).barred = false ∧
    ReqName.ofCode ({ f with body := [0, 0, 0x12, 0x67, 9, 0, 0, 0, 0] } : Frame).lampCode = none ∧
    (let g : Frame := { f with body := [0, 0, 0x12, 0x67, 8, 0, 2, 0, 0] };
      ReqName.ofCode g.lampCode = some .setRest ∧ 1 < (byteAt g.body 6).toNat ∧
      (demo .ready).lampOutcome g = .answer .badRequest) ∧
    (byteAt (lampFrame .setRest 0).body 6).toNat ≤ 1 := by
  decide +kernel

theorem test_hyps_lamp_refusals :
    ((demo (.pending (running .duration .headend false 0))).entry 5).state.underTest = true ∧
    ((demo (.recharging 3)).entry 5).state = .recharging 3 ∧
    (let s := { demo .ready with groups := State.reset.groups.set 0 { GroupSettings.default with quotaPercent := 0 } };
      s.quota 0 ≤ s.outOfService 0) ∧ 12 ≤ crowded.lineActive 2 ∧ crowded.findCln 4711 = some 5 ∧
    StartPermitted crowded (crowded.entry 5) true ∧ StartPermitted crowded (lit (.recharging 2)) true ∧
    ReqName.ofCode (lampFrame .setParam 0).lampCode = some .setParam := by
  refine ⟨by decide, by decide, by decide +kernel, by decide +kernel, by decide +kernel,
    .inl ⟨.inl (by decide), .inl rfl⟩, .inr ⟨⟨2, rfl⟩, rfl⟩, by decide⟩

theorem test_hyps_lamp_passes : let e := (demo .ready).entry 5
    let full := (demo .ready).setLine 2 { State.reset.line 2 with pass := List.replicate 8 (passReq .probe) };
    LampPasses (demo .ready) e .startDuration false ∧ LampPasses (demo .ready) e .setRest false ∧
    LampPasses (demo .ready) (lit (.backoff 4)) .startFunction true ∧
    LampPasses (demo .ready) (lit (.recharging 4)) .startFunction true ∧
    LampPasses (demo .ready) (lit (.pending (running .function .headend true 0))) .stopTest false ∧
    8 ≤ (full.line 2).pass.length + (full.line 2).backlog.length ∧ (full.entry 5) = e ∧
    (((demo .ready).setEngine 2 .down).line 2).engine = .down := by
  refine ⟨⟨by decide, by decide, fun _ => ⟨.inl ⟨.inl (by decide), .inr (by decide +kernel)⟩, by decide +kernel⟩, nofun⟩,
    ⟨by decide, by decide, by simp, nofun⟩,
    ⟨by decide, by decide, fun _ => ⟨.inl ⟨.inr (.inl ⟨4, rfl⟩), .inl rfl⟩, by decide +kernel⟩, nofun⟩,
    ⟨by decide, by decide, fun _ => ⟨.inr ⟨⟨4, rfl⟩, rfl⟩, by decide +kernel⟩, nofun⟩,
    ⟨by decide, by decide, by simp, fun _ u h => ?_⟩, by decide, by decide, by decide⟩
  cases h; rfl

theorem test_hyps_lamp_cancel : let u := running .duration .headend false 0
    let s := (demo (.pending u)).setLine 2 { State.reset.line 2 with engine := .gap, pass := [passReq .startDuration] };
    (s.entry 5).barred = false ∧ (s.entry 5).state = .pending u ∧ u.startSent = false ∧ u.origin = .headend ∧
    (running .duration .scheduler false 0).origin = .scheduler ∧ s.tx.length < 16 ∧ (s.line 2).engine ≠ .idle ∧
    s.findCln 4711 = some 5 ∧ ReqName.ofCode (lampFrame .stopTest 0).lampCode = some .stopTest ∧
    leaves .lampRequestTake { s with rx := [lampFrame .stopTest 0] } (fun t => (t.entry 5).state == .ready &&
      (t.line 2).backlog == [outcomeFrame s .cancelled (passReq .startDuration)] && (t.line 2).pass.isEmpty) = true := by
  decide +kernel

theorem test_hyps_lamp_accepted : (demo .ready).findCln (lampFrame .startDuration 0).lampCln = some 5 ∧
    ((demo .ready).line 2).pass.length + ((demo .ready).line 2).backlog.length < 8 ∧
    (((demo .ready).setEngine 2 .gap).line 2).engine ≠ .idle ∧ ((demo .ready).line 2).engine ≠ .down ∧
    ((demo (.testing (running .function .scheduler true 5))).entry 5).state =
      .testing (running .function .scheduler true 5) ∧
    ((demo (.backoff 4)).entry 5).state.underTest = false ∧
    (let s := { demo .ready with capture := { Capture.initial with target := 4711, mode := .change, state := .watching } };
      s.capture.state = .watching ∧ (lampFrame .setRest 0).lampCln = s.capture.target ∧ s.capture.mode = .change ∧
      leaves .lampRequestTake { s with rx := [lampFrame .setRest 0] } (fun t => t.capture.state.record.isSome) = true) ∧
    State.reset.capture.state ≠ .watching := by decide +kernel

/-- A state whose capture watches for entry 5. -/
def watching (m : CaptureMode) (s : State) : State :=
  { s with capture := { Capture.initial with target := 4711, mode := m, state := .watching } }

theorem test_hyps_capture_opens : let s := watching .test (admitting (armedWith .ready));
    let p := watching .any (demo (.testing (running .duration .headend true 9)));
    s.capture.state = .watching ∧ s.capture.target = (s.entry 5).cln ∧ s.capture.mode = .test ∧
    p.capture.state = .watching ∧ p.capture.mode = .any ∧ (p.entry 5).inUse = true ∧
    (p.entry 5).cln = p.capture.target ∧ (p.line 2).polls.countP (fun q => q.entry == 5) = 0 ∧
    leaves .admission s (fun t => t.capture.state.record.isSome) = true := by decide +kernel

theorem test_hyps_capture_ends : let c := { startReq with mark := some 0 }
    let r := { passReq .startDuration with mark := some 0 }
    let u := running .duration .scheduler false 0
    let s := (capturing (sensing (.pending u) (.lossPending 1))).setLine 2 { State.reset.line 2 with
      engine := .gap, pass := [r], control := [c] };
    s.capture.state = .opened captureRecord 0 ∧ (exchange (.control c)).work.mark = some 0 ∧
    (s.entry 5).inUse = true ∧ (s.entry 5).line = 2 ∧ (s.entry 5).state = .pending u ∧ u.startSent = false ∧
    u.origin = .scheduler ∧ (∃ d ∈ (s.line 2).control, d.kind ≠ .stopTest ∧ d.entry = 5 ∧ d.mark = some 0) ∧
    (∃ d ∈ (s.line 2).control, d.isStartFor 5 = true ∧ d.mark = some 0) ∧
    ∃ q ∈ (s.line 2).pass, q.isStartFor 5 = true ∧ q.mark = some 0 := by decide

theorem test_hyps_mgmt_taken : State.reset.mgmt = .idle ∧ (∀ g ∈ [lampFrame .probe 0], g.kind ≠ .mgmtRequest) ∧
    (mgmtFrame [16]).kind = .mgmtRequest ∧ parseMgmt [16] = some .schedOn ∧ parseMgmt [99] = none ∧
    (working State.reset (.request .schedOn)).mgmt ≠ .idle := by decide

theorem test_hyps_read_table :
    (working State.reset (.request (.readTable 4 0 16))).mgmt = .working who (.request (.readTable 4 0 16)) ∧
    Table.ofCode (0 : Byte).toNat = none ∧ Table.ofCode (9 : Byte).toNat = none ∧
    Table.ofCode (1 : Byte).toNat = some .map ∧ Table.ofCode (8 : Byte).toNat = some .bridge ∧
    Table.bridge.size ≤ 1 ∧ 0 < Table.bridge.size ∧ 239 < Table.map.size ∧ Table.ofCode (4 : Byte).toNat = some .blackout ∧
    (working State.reset (.reading .map 0 2 [])).mgmt = .working who (.reading .map 0 2 []) := by decide

theorem test_hyps_write_table :
    (working State.reset (.request (.writeTable 6 [.policy 0 true]))).mgmt =
      .working who (.request (.writeTable 6 [.policy 0 true])) ∧ State.reset.save = none ∧
    ({ State.reset with save := some .erasing } : State).save ≠ none ∧
    (working State.reset (.writing .policy [.policy 0 true, .policy 8 true] 0)).mgmt =
      .working who (.writing .policy [.policy 0 true, .policy 8 true] 0) ∧
    (match State.reset.takePolicy 8 true with | .error c => c == .indexRange | .ok _ => false) = true ∧
    (match State.reset.takePolicy 7 true with | .error _ => false | .ok t => t.policy[7]) = true := by decide

theorem test_hyps_settings_records : (31 : Nat) < 32 ∧ (7 : Nat) < 8 ∧ (15 : Nat) < 16 ∧ (5 : Nat) < 6 ∧ (3 : Nat) < 4 ∧
    (working State.reset (.writing .line [.line ⟨5, 0, 0, 0⟩] 0)).mgmt = .working who (.writing .line [.line ⟨5, 0, 0, 0⟩] 0) ∧
    0x0600 ≤ BridgeSettings.default.lightingType.toNat := by decide

/-- A blackout list of sixteen entries. -/
def fullBlackouts : List Blackout := (List.range 16).map fun k => ⟨k, k + 1, 1⟩

theorem test_hyps_calendar_records : (6 : Nat) < 7 ∧ (⟨3, 3, 1⟩ : Blackout).stop ≤ (⟨3, 3, 1⟩ : Blackout).start ∧
    (⟨3, 4, 1⟩ : Blackout) ∈ fullBlackouts ∧ (⟨3, 5, 1⟩ : Blackout) ∉ fullBlackouts ∧ 16 ≤ fullBlackouts.length ∧
    State.reset.blackouts.length < 16 ∧ (⟨3, 4, 0⟩ : Blackout).classes = 0 := by decide

theorem test_hyps_blackout_law : BlackoutLaw State.reset := by
  unfold BlackoutLaw; decide

theorem test_blackout_stands_behind_its_equals : placeBlackout ⟨3, 9, 4⟩ [⟨1, 2, 1⟩, ⟨3, 9, 1⟩, ⟨3, 9, 2⟩, ⟨3, 10, 1⟩] =
    [⟨1, 2, 1⟩, ⟨3, 9, 1⟩, ⟨3, 9, 2⟩, ⟨3, 9, 4⟩, ⟨3, 10, 1⟩] := by decide

theorem test_hyps_second :
    (let u := running .duration .headend true 2
      let s : State := { sensing (.testing u) (.lossPending 1) with seconds := 59 };
      s.pending = [] ∧ (s.entry 5).state = .testing u ∧ (s.entry 5).inUse = true ∧ 2 ≤ u.remaining ∧ 2 ≤ u.pollDue ∧
      ({ u with pollDue := 1 } : CurrentTest).pollDue ≤ 1 ∧ (s.mainsLine 2).sense = .lossPending 1 ∧
      ((demo (.testing u)).mainsLine 2).sense = .present) ∧
    ((sensing .ready (.lossPending 2)).mainsLine 2).sense = .lossPending 2 ∧
    ((sensing .ready (.restorePending 2)).mainsLine 2).sense = .restorePending 2 ∧
    ((sensing .ready (.restorePending 1)).mainsLine 2).sense = .restorePending 1 ∧
    (let s := (demo .ready).setLine 2 { State.reset.line 2 with
        engine := .down, supplyOn := false, retryTimer := some 1 };
      (s.line 2).retryTimer = some 1 ∧ (s.line 2).engine = .down ∧ (s.line 2).supplyOn = false) := by decide

theorem test_hyps_image_frame_bad : ImageFrameBad [0x48, 0x57, 0x36, 0x32, 2] ∧
    ImageFrameBad [0x48, 0x57, 0x36, 0x32, 1, 0, 0, 0, 0, 1, 2, 3, 4] ∧
    (State.reset.atPowerUp 1).loadImage = none := by
  refine ⟨.inl (by decide), .inr (.inr (by decide +kernel)), ?_⟩
  simp only [State.loadImage]
  rw [if_neg (by decide)]

theorem test_hyps_minute_ends : let u := running .duration .headend true 1
    u.remaining ≤ 1 ∧ ((demo (.testing u)).entry 5).state = .testing u ∧ ((demo (.testing u)).line 2).engine ≠ .down ∧
    (((demo (.testing u)).setEngine 2 .down).line 2).engine = .down ∧
    ((demo (.pending u)).entry 5).state = .pending u ∧ u.startSent = true := by decide

theorem test_hyps_idle_line : let s := admitting (armedWith .ready)
    (s.line 2).engine = .idle ∧ (s.line 2).pass = [] ∧ (s.line 2).control = [] ∧ (s.line 2).polls = [] ∧
    s.owedStop 2 = none := by decide +kernel

theorem test_hyps_sense_after_reset : let s := (demo .ready).setLine 2 { State.reset.line 2 with senseDue := true };
    (s.line 2).engine ≠ .down ∧ (s.line 2).senseDue = true ∧ ((demo .ready).line 2).senseDue = false := by decide

theorem test_hyps_last_bad_answer : let u := running .duration .scheduler true 9
    let x := exchange (.poll ⟨5, some 0⟩)
    let s := capturing (awaiting (.testing u) (.poll ⟨5, some 0⟩));
    x.allowed ≤ x.made ∧ (∀ r, x.work ≠ .passThrough r) ∧ x.work.mark = some 0 ∧
    (∀ p ∈ (s.line 2).polls, p.mark ≠ some 0) ∧ (∀ c ∈ (s.line 2).control, c.mark ≠ some 0) ∧
    (let h := awaiting .ready (.passThrough (passReq .probe));
      ((h.setLine 2 { h.line 2 with backlog := [lampFrame .probe 0] }).line 2).backlog ≠ []) := by
  refine ⟨by decide, fun r h => by simp [exchange] at h, rfl, by decide, by decide, by decide⟩

theorem test_hyps_lengths : MgmtLength [2, 1, 0] ∧ MgmtLength [2, 9, 77] ∧ ¬MgmtLength [2, 6, 1] ∧ ¬MgmtLength [] ∧
    ¬MgmtLength [16, 0] ∧ MgmtLength (28 :: beBytes 2 65535) ∧
    (byteAt (lampFrame .probe 0).payload 1 = 1 ∧ (((lampFrame .probe 0).payload.drop 7).take 8).length ≠ 9) := by
  unfold MgmtLength; refine ⟨?_, ?_, ?_, ?_, ?_, ?_, by decide⟩ <;> simp [byteAt, recordLengths, beBytes, byteOf]

theorem test_no_backlog_at_reset (n : LineId) : (State.reset.line n).backlog = [] := by
  revert n; decide

theorem test_hyps_first_waiter :
    (let s : State := { State.reset with noticePending := true, lampWaiting := true, rotation := .management };
      FirstWaiter s .eventUnit) ∧ FirstWaiter { State.reset with lampWaiting := true } .lampPath ∧
    ∀ w, ¬Waits State.reset w := by
  refine ⟨⟨rfl, fun v h => ?_⟩, ⟨rfl, fun v h => ?_⟩, fun w h => ?_⟩
  · cases v with
    | lampPath => decide
    | management => obtain ⟨a, h⟩ := h; exact nomatch h
    | backlog n => exact absurd (test_no_backlog_at_reset n) h
    | eventUnit => decide
  · cases v with
    | lampPath => decide
    | management => obtain ⟨a, h⟩ := h; exact nomatch h
    | backlog n => exact absurd (test_no_backlog_at_reset n) h
    | eventUnit => exact nomatch h
  · cases w with
    | lampPath => exact nomatch h
    | management => obtain ⟨a, h⟩ := h; exact nomatch h
    | backlog n => exact absurd (test_no_backlog_at_reset n) h
    | eventUnit => exact nomatch h

theorem test_hyps_save_order : saveOrder[12]? = some .blackout ∧ saveOrder[252]? = some (.map 239) ∧
    saveOrder.length = 253 := by decide +kernel

/-- A MAP record for index 6 that selects every group. -/
def mapRec (cln line node : Nat) : MapRecord :=
  { index := 6, identity := true, membership := true, ratings := true, flags := true, history := true, inUse := true,
    cln := cln, line := line, node := node, group := 31, battery := 15, rated := 60, locked := false, barred := false,
    held := false, addedAt := none, lastFunctionEnd := none, lastDurationEnd := none }

theorem test_hyps_map_record : let s := working (demo .ready) (.writing .map [.map (mapRec 999999 5 40)] 0);
    s.mgmt = .working who (.writing .map [.map (mapRec 999999 5 40)] 0) ∧ (s.entry 6).inUse = false ∧
    ¬((999999 : Nat) = 0 ∨ 999999 < 999999 ∨ 5 < 5 ∨ 40 = 0 ∨ 40 < 40) ∧ ¬(31 < 31) ∧ ¬(15 < 15) ∧
    (∃ j : EntryId, j ≠ 6 ∧ (s.entry j).inUse = true ∧ (s.entry j).cln = 4711) ∧
    ¬(∃ j : EntryId, j ≠ 6 ∧ (s.entry j).inUse = true ∧
      ((s.entry j).cln = 999999 ∨ ((s.entry j).line.val = 5 ∧ (s.entry j).node = 40))) ∧
    leaves .mapRecord s (fun t => (t.entry 6).cln == 999999 && (t.entry 6).battery == 15) = true ∧
    leaves .mapRecord (working (demo .ready)
        (.writing .map [.map { mapRec 999999 5 40 with ratings := false, battery := 16 }] 0))
      (fun t => t.entry 6 == Entry.free && t.tx.map (fun f => f.body) == [[2, 3, 1]]) = true := by
  decide +kernel

/-- A MAP record for index 5 that selects nothing. -/
def mapNone : MapRecord :=
  { mapRec 4711 2 17 with
    index := 5, identity := false, membership := false, ratings := false, flags := false, history := false }

/-- A MAP record for index 5 that selects identity, ratings and history. -/
def mapChange : MapRecord :=
  { mapNone with
    identity := true, cln := 4712, line := 3, history := true, ratings := true, rated := 239,
    lastFunctionEnd := some 7 }

theorem test_hyps_map_change : ((demo (.ending (running .function .headend true 0))).entry 5).state.underTest = true ∧
    ((demo (.recharging 4)).entry 5).state.outOfService = true ∧ ((demo .ready).entry 5).inUse = true ∧
    ((demo .ready).entry 5).state.underTest = false ∧ 239 < 240 ∧
    mapNone.group ≠ ((demo .ready).entry 5).group.val ∧ mapNone.line = ((demo .ready).entry 5).line.val ∧
    (let r := mapChange
      let s := (working (demo .ready) (.writing .map [.map r] 0)).setEntry 5
        { lit .ready with overdueFunction := true, touched := true };
      (s.entry 5).inUse = true ∧ r.line ≠ (s.entry 5).line.val ∧
      ¬(∃ j : EntryId, j ≠ 5 ∧ (s.entry j).inUse = true) ∧
      leaves .mapRecord s (fun t => t.entry 5 == { lit .ready with
        cln := 4712, line := 3, battery := 15, rated := 210, lastFunctionEnd := some 7 }) = true) := by decide +kernel

theorem test_hyps_entry_controls :
    (working (demo .faulted) (.request (.clearFault 5))).mgmt = .working who (.request (.clearFault 5)) ∧
    ((demo .faulted).entry ⟨5, by decide⟩).state = .faulted ∧ ((demo .ready).entry ⟨5, by decide⟩).state ≠ .faulted ∧
    ((demo .ready).entry ⟨239, by decide⟩).inUse = false ∧ ((demo .ready).entry ⟨5, by decide⟩).inUse = true ∧
    (254 : Nat) ≠ 255 ∧ 239 < 254 ∧
    (working (demo .ready) (.request (.clearTouched 255))).mgmt = .working who (.request (.clearTouched 255)) := by decide

theorem test_hyps_bridge_controls :
    (working State.reset (.request (.armCapture 999999 1 0))).mgmt = .working who (.request (.armCapture 999999 1 0)) ∧
    (1 ≤ 999999 ∧ CaptureMode.any ≠ .off ∧ (1 : Byte) = byteOf CaptureMode.any.code ∧ (0 : Byte) = byteOf CaptureAction.record.code) ∧
    (∃ r, State.reset.capture.state = .idle r) ∧
    (∀ r, ({ Capture.initial with state := .watching } : Capture).state ≠ .idle r) ∧ CaptureLaw State.reset := by
  refine ⟨by decide, by decide, ⟨none, rfl⟩, fun r h => by simp at h, by decide, ?_, ?_⟩
  · exact fun r h => by simp [State.reset, Capture.initial, CaptureState.record] at h
  · trivial

theorem test_hyps_image_save : ({ State.reset with save := some (.reading .bridge) } : State).save = some (.reading .bridge) ∧
    ({ State.reset with save := some (.writing [1] (some .line)) } : State).save = some (.writing [1] (some .line)) ∧
    ({ State.reset with save := some (.writing [1] none) } : State).save = some (.writing [1] none) ∧
    ({ State.reset with save := some (.crc [1, 2, 3, 4]) } : State).save = some (.crc [1, 2, 3, 4]) ∧
    beBytes 4 (crc32 (([0, 0, 0, 0] : List Byte).take 0)).toNat = [0, 0, 0, 0] := by decide +kernel

theorem test_tables_in_range_at_reset : TablesInRange State.reset := by
  unfold TablesInRange groupOk lineSettingsOk settingsOk; decide

theorem test_hyps_read_record : Table.group.size = 32 ∧ 31 < Table.group.size ∧ 15 < Table.criteria.size ∧
    7 < Table.policy.size ∧ 5 < Table.line.size ∧ State.reset.passState = .idle ∧ State.reset.plan = [] ∧
    State.reset.noticePending = false ∧ State.reset.noticeOwed = false ∧
    ({ State.reset with blackouts := fullBlackouts } : State).blackouts[15]? = some ⟨15, 16, 1⟩ ∧
    entryOk ((demo .faulted).entry ⟨5, by decide⟩) ∧
    (∀ t, ((demo .faulted).entry ⟨5, by decide⟩).addedAt ≠ some t) := by
  refine ⟨rfl, by decide, by decide, by decide, by decide, rfl, rfl, rfl, rfl, rfl, ?_, fun t h => nomatch h⟩
  have e : (demo .faulted).entry ⟨5, by decide⟩ = lit .faulted := by decide
  rw [e]; unfold entryOk lit Entry.free stateOk; decide

/-- The laws the invariants assume hold together after reset, and a step from there answers a next state. -/
theorem test_hyps_invariants : QueuesBounded State.reset ∧ ClockLaw State.reset ∧ TablesInRange State.reset ∧
    PlanLaw State.reset ∧ SupplyLaw State.reset ∧ PollsLaw State.reset ∧ MainsLaw State.reset ∧
    isNext (step { State.reset with pending := [.minuteEvent] }) = true := by
  refine ⟨?_, ?_, test_tables_in_range_at_reset, ?_, ?_, ?_, ?_, ?_⟩
  · unfold QueuesBounded; decide
  · exact ⟨by decide, by decide, by decide, fun m h => nomatch h⟩
  · unfold PlanLaw; decide
  · unfold SupplyLaw supplyOk; decide
  · unfold PollsLaw; decide
  · unfold MainsLaw mainsOk; decide
  · rfl

theorem test_entries_unique_at_reset : EntriesInRange State.reset ∧ MapUnique State.reset := by
  have h : ∀ i : EntryId, State.reset.entry i = Entry.free := by
    intro i; simp [State.entry, State.reset]
  refine ⟨fun i => ?_, fun i j _ hi => ?_⟩
  · rw [h i]; unfold entryOk Entry.free stateOk; decide
  · rw [h i] at hi; exact nomatch hi

theorem test_notice_and_active_at_reset : NoticeLaw State.reset ∧ ActiveLaw State.reset := by
  refine ⟨⟨by decide, by decide, by decide, ?_, fun f h => nomatch h⟩, ?_⟩
  · decide
  · unfold ActiveLaw; decide +kernel

/-- A state with one entry in use can be saved whole, and a flash can hold its image. -/
theorem test_hyps_savable : Savable (demo .faulted) ∧
    ({ State.reset with flash := savedImage (demo .faulted) } : State).flash = savedImage (demo .faulted) := by
  have h : ∀ i : EntryId, (demo .faulted).entry i = if 5 = i then lit .faulted else Entry.free := by
    intro i
    rw [demo, Laws.setEntry_entry]
    simp [State.entry, State.reset]
  refine ⟨⟨test_tables_in_range_at_reset, fun i => ?_, fun i j hij hi hj => ?_, test_hyps_blackout_law,
    fun b hb => absurd hb (List.not_mem_nil), fun i m hm => ?_⟩, rfl⟩
  · rw [h i]
    split
    · unfold entryOk lit Entry.free stateOk; decide
    · unfold entryOk Entry.free stateOk; decide
  · rw [h i] at hi
    rw [h j] at hj
    split at hi
    · rename_i e; split at hj
      · rename_i e'; exact absurd (e.symm.trans e') hij
      · exact nomatch hj
    · exact nomatch hi
  · rw [h i] at hm
    split at hm <;> rcases hm with hm | hm | hm <;> exact nomatch hm

theorem test_hyps_pending_kept : let u := running .duration .headend true 0
    let s := awaiting (.pending u) (.poll ⟨5, none⟩);
    let a := working s (.request (.lineAbort 2));
    (s.line 2).engine = .awaiting (exchange (.poll ⟨5, none⟩)) 30 ∧ s.findPlace 2 17 = some 5 ∧
    (exchange (.poll ⟨5, none⟩)).work.name = .probe ∧ (exchange (.control stopReq)).work.name = .stopTest ∧
    (s.entry 5).state = .pending u ∧ a.mgmt = .working who (.request (.lineAbort 2)) ∧
    (a.line 2).engine.exchange = some (exchange (.poll ⟨5, none⟩)) ∧
    (exchange (.poll ⟨5, none⟩)).work.name.isStart = false ∧ (s.line 2).engine ≠ .down ∧ u.startSent = true := by
  decide +kernel

theorem test_hyps_removal_with_history :
    let r : MapRecord := { mapNone with identity := true, inUse := false, history := true };
    (EntryState.recharging 4).outOfService = true ∧ (EntryState.recharging 4).underTest = false ∧
    (EntryState.backoff 4).outOfService = false ∧ (EntryState.backoff 4).underTest = false ∧
    leaves .mapRecord (working (demo (.recharging 4)) (.writing .map [.map r] 0))
      (fun t => (t.entry 5).inUse && t.tx.map (fun f => f.body) == [[2, 5, 1]]) = true ∧
    leaves .mapRecord (working (demo (.backoff 4)) (.writing .map [.map r] 0))
      (fun t => t.entry 5 == Entry.free && t.tx.map (fun f => f.body) == [[2, 0, 1]]) = true := by
  decide +kernel

theorem test_hyps_read_status : let s := working (capturing (demo .ready)) (.request (.readStatus true))
    s.mgmt = .working who (.request (.readStatus true)) ∧ s.capture.state = .opened captureRecord 0 ∧
    CaptureLaw s := by
  refine ⟨rfl, rfl, by decide, fun r h => ?_, by decide, rfl⟩
  cases h; decide

end Sys2Proof.Tests
end

section
/-! The arithmetic of campus time (R43): what each reading of a minute is, its range, and how the absolute half-hour
counts days and slots. -/

namespace Sys2Proof.CampusTime

open Sys2Proof.Machine

/-! ### Day number and weekday -/

theorem dayNumber_le {m : Nat} (h : m ≤ maxMinute) : dayNumber m ≤ 2982616 :=
  Nat.div_le_div_right (c := 1440) h

theorem weekday_lt (m : Nat) : weekday m < 7 :=
  Nat.mod_lt _ (by decide)

/-! ### Minute of day and slot -/

theorem minuteOfDay_eq_mod (m : Nat) : minuteOfDay m = m % 1440 :=
  Nat.mod_eq_sub_mul_div.symm

theorem minuteOfDay_lt (m : Nat) : minuteOfDay m < 1440 := by
  rw [minuteOfDay_eq_mod]
  exact Nat.mod_lt m (by decide)

theorem slotOf_lt (m : Nat) : slotOf m < 48 :=
  Nat.div_lt_of_lt_mul (minuteOfDay_lt m)

/-- Slot `k` covers the minutes `30 k` to `30 k + 29` of its day. -/
theorem slotOf_eq_iff (m k : Nat) :
    slotOf m = k ↔ 30 * k ≤ minuteOfDay m ∧ minuteOfDay m ≤ 30 * k + 29 := by
  unfold slotOf
  omega

/-! ### The absolute half-hour: 48 of them make one day -/

theorem halfHour_le {m : Nat} (h : m ≤ maxMinute) : halfHour m ≤ 143165576 :=
  Nat.div_le_div_right (c := 30) h

theorem halfHour_div_48 (m : Nat) : halfHour m / 48 = dayNumber m :=
  Nat.div_div_eq_div_mul m 30 48

theorem halfHour_weekday (m : Nat) : halfHour m / 48 % 7 = weekday m := by
  rw [halfHour_div_48, weekday]

theorem halfHour_mod_48 (m : Nat) : halfHour m % 48 = slotOf m := by
  rw [slotOf, minuteOfDay_eq_mod]
  exact (Nat.mod_mul_right_div_self m 30 48).symm

/-! ### The statement -/

/-- Settles O8: the three readings of R43 are computed; for every minute each working is the model's definition, and
its range, the cover of a slot and the half-hour's weekday and slot are the lemmas above. -/
theorem weekdayAndSlot : Obligations.WeekdayAndSlot := by
  refine ⟨by decide, fun m hm => ?_⟩
  exact ⟨rfl, dayNumber_le hm,
    rfl, Nat.le_of_lt_succ (weekday_lt m),
    rfl, Nat.le_of_lt_succ (minuteOfDay_lt m),
    rfl, Nat.le_of_lt_succ (slotOf_lt m),
    rfl, halfHour_le hm,
    slotOf_eq_iff m, halfHour_weekday m, halfHour_mod_48 m⟩

end Sys2Proof.CampusTime
end

section
/-! The plan list (R77, R78): the order of its records, the place of a candidate in it, and what handing a candidate to
a list with room and to a full list does. -/

namespace Sys2Proof.PlanList

open Sys2Proof.Machine

/-! ### The order of R77: records of different entries stand in exactly one order -/

theorem before_iff (a b : PlanRecord) :
    a.before b = true ↔ b.score < a.score ∨ (a.score = b.score ∧ a.entry.val < b.entry.val) := by
  simp [PlanRecord.before]

theorem before_trans {a b c : PlanRecord} (hab : a.before b = true) (hbc : b.before c = true) :
    a.before c = true := by
  rw [before_iff] at *
  omega

theorem before_of_not_before {a b : PlanRecord} (hne : a.entry ≠ b.entry) (h : ¬ a.before b = true) :
    b.before a = true := by
  have hval : a.entry.val ≠ b.entry.val := Fin.val_ne_of_ne hne
  rw [before_iff] at *
  omega

/-! ### The place of a candidate -/

theorem placePlan_perm (c : PlanRecord) (l : List PlanRecord) : (placePlan c l).Perm (c :: l) := by
  induction l with
  | nil => exact .refl _
  | cons r rest ih =>
    rw [placePlan]
    split
    · exact (ih.cons r).trans (.swap c r rest)
    · exact .refl _

/-- A candidate whose entry has no record in the list keeps the list's order: it goes behind the records before it, and
it is before the first of the others, so before all of them. -/
theorem placePlan_pairwise {c : PlanRecord} {l : List PlanRecord}
    (hl : l.Pairwise (fun a b => a.before b = true)) (hne : ∀ r ∈ l, r.entry ≠ c.entry) :
    (placePlan c l).Pairwise (fun a b => a.before b = true) := by
  induction l with
  | nil => exact List.pairwise_singleton _ _
  | cons r rest ih =>
    obtain ⟨hr, hrest⟩ := List.pairwise_cons.mp hl
    obtain ⟨hrc, hne'⟩ := List.forall_mem_cons.mp hne
    rw [placePlan]
    split
    case isTrue hbefore =>
      refine List.pairwise_cons.mpr ⟨fun x hx => ?_, ih hrest hne'⟩
      obtain rfl | hx := List.mem_cons.mp ((placePlan_perm c rest).mem_iff.mp hx)
      · exact hbefore
      · exact hr x hx
    case isFalse hnot =>
      have hcr : c.before r = true := before_of_not_before hrc hnot
      exact List.pairwise_cons.mpr
        ⟨List.forall_mem_cons.mpr ⟨hcr, fun x hx => before_trans hcr (hr x hx)⟩, hl⟩

/-! ### Handing a candidate to the list: room, a last record with a lower score, neither -/

theorem insertPlan_of_room (c : PlanRecord) {l : List PlanRecord} (h : l.length < 16) :
    insertPlan c l = placePlan c l :=
  if_pos h

theorem insertPlan_of_full (c : PlanRecord) {l : List PlanRecord} {last : PlanRecord}
    (h : 16 ≤ l.length) (hlast : l.getLast? = some last) :
    insertPlan c l = if last.score < c.score then placePlan c l.dropLast else l := by
  rw [insertPlan, if_neg (Nat.not_lt.mpr h), hlast]

theorem insertPlan_pairwise {c : PlanRecord} {l : List PlanRecord}
    (hl : l.Pairwise (fun a b => a.before b = true)) (hne : ∀ r ∈ l, r.entry ≠ c.entry) :
    (insertPlan c l).Pairwise (fun a b => a.before b = true) := by
  by_cases hroom : l.length < 16
  · rw [insertPlan_of_room c hroom]
    exact placePlan_pairwise hl hne
  · have hfull : 16 ≤ l.length := Nat.not_lt.mp hroom
    have hnil : l ≠ [] := List.ne_nil_of_length_pos (by omega)
    rw [insertPlan_of_full c hfull (List.getLast?_eq_some_getLast hnil)]
    split
    · exact placePlan_pairwise (hl.sublist l.dropLast_sublist) fun r hr => hne r (l.dropLast_sublist.subset hr)
    · exact hl

/-! ### The statement -/

/-- Settles O11: the indices below the candidate's make its entry a new one in the list, so the order is kept; the
three cases of R78 are the equations of `insertPlan` with `placePlan_perm`. -/
theorem planInsertion : Obligations.PlanInsertion := by
  intro c l hl hbelow
  have hne : ∀ r ∈ l, r.entry ≠ c.entry := fun r hr => Fin.ne_of_lt (hbelow r hr)
  refine ⟨insertPlan_pairwise hl hne, fun hroom => ?_, fun last hlen hlast => ?_⟩
  · rw [insertPlan_of_room c hroom]
    exact placePlan_perm c l
  · rw [insertPlan_of_full c (Nat.le_of_eq hlen.symm) hlast]
    refine ⟨fun hlower => ?_, fun hnotLower => if_neg (Nat.not_lt.mpr hnotLower)⟩
    rw [if_pos hlower]
    exact placePlan_perm c l.dropLast

end Sys2Proof.PlanList
end

section
/-! The recharge of a verdict (R113): the rounded-up division under it, and the table of the kinds and verdicts. -/

namespace Sys2Proof.Recharge

open Sys2Proof.Machine

/-! ### Division rounded up -/

theorem divUp_le_iff {a b c : Nat} (hb : 0 < b) : divUp a b ≤ c ↔ a ≤ c * b := by
  rw [divUp, ← Nat.lt_succ_iff, Nat.div_lt_iff_lt_mul hb, Nat.succ_mul]
  omega

theorem le_divUp_mul (a : Nat) {b : Nat} (hb : 0 < b) : a ≤ divUp a b * b :=
  (divUp_le_iff hb).mp (Nat.le_refl _)

theorem divUp_mul_lt (a : Nat) {b : Nat} (hb : 0 < b) : divUp a b * b < a + b := by
  have h : divUp a b * b ≤ a + b - 1 := Nat.div_mul_le_self (a + b - 1) b
  omega

theorem divUp_zero {b : Nat} (hb : 0 < b) : divUp 0 b = 0 :=
  Nat.le_zero.mp ((divUp_le_iff hb).mpr (Nat.zero_le _))

/-! ### The table of R113 -/

theorem verdictRecharge_function (r d e : Nat) (v : Verdict) : verdictRecharge r d e .function v = 0 := by
  cases v <;> rfl

theorem verdictRecharge_aborted (r d e : Nat) {v : Verdict} (h : v = .abortedHeadend ∨ v = .abortedOutage) :
    verdictRecharge r d e .duration v = divUp (r * min e d) d := by
  obtain rfl | rfl := h <;> rfl

theorem verdictRecharge_ended (r d e : Nat) {v : Verdict} (hh : v ≠ .abortedHeadend) (ho : v ≠ .abortedOutage) :
    verdictRecharge r d e .duration v = r := by
  cases v
  case abortedHeadend => exact absurd rfl hh
  case abortedOutage => exact absurd rfl ho
  all_goals rfl

/-- The part of the recharge an aborted test needs is no more than the whole: E counts up to D. -/
theorem verdictRecharge_le (r e : Nat) {d : Nat} (k : Kind) (v : Verdict) (hd : 0 < d) :
    verdictRecharge r d e k v ≤ r := by
  cases k with
  | function => rw [verdictRecharge_function]; exact Nat.zero_le r
  | duration =>
    by_cases h : v = .abortedHeadend ∨ v = .abortedOutage
    · rw [verdictRecharge_aborted r d e h]
      exact (divUp_le_iff hd).mpr (Nat.mul_le_mul_left r (Nat.min_le_right e d))
    · obtain ⟨hh, ho⟩ := not_or.mp h
      exact Nat.le_of_eq (verdictRecharge_ended r d e hh ho)

/-! ### The statement -/

/-- Settles O21: each line of R113's table is an equation above; the rounding of an aborted test's part is that of
`divUp`. -/
theorem verdictRecharge : Obligations.VerdictRecharge := by
  intro r d e v hd
  refine ⟨verdictRecharge_function r d e v, verdictRecharge_ended r d e, fun h => ?_,
    fun k => verdictRecharge_le r e k v hd⟩
  rw [verdictRecharge_aborted r d e h]
  refine ⟨⟨divUp_mul_lt _ hd, le_divUp_mul _ hd⟩, fun he => ?_⟩
  rw [he, Nat.zero_min, Nat.mul_zero, divUp_zero hd]

end Sys2Proof.Recharge
end

section
/-! Test reports and stop answers for an entry under test (R98, R99, R102, R109, R110): what an admitted answer decodes
to, what the Test Monitor makes of it, and that the rest of the exchange's end leaves the entry's verdict and state as
the Monitor left them. -/

namespace Sys2Proof.ReportsAndStops

open Sys2Proof Sys2Proof.Machine Sys2Proof.Machine.Safety Sys2Proof.Laws

/-! ### The course of one entry: its last verdict and its state -/

/-- The last verdict and the state of an entry are the same in both states. -/
def SameCourse (i : EntryId) (s t : State) : Prop :=
  (t.entry i).lastVerdict = (s.entry i).lastVerdict ∧ (t.entry i).state = (s.entry i).state

theorem SameCourse.refl (i : EntryId) (s : State) : SameCourse i s s := ⟨rfl, rfl⟩

theorem SameCourse.trans {i : EntryId} {s t u : State} (h : SameCourse i s t) (k : SameCourse i t u) :
    SameCourse i s u :=
  ⟨k.1.trans h.1, k.2.trans h.2⟩

theorem sameCourse_of_entry_eq {i : EntryId} {s t : State} (h : t.entry i = s.entry i) : SameCourse i s t :=
  ⟨congrArg Entry.lastVerdict h, congrArg Entry.state h⟩

theorem sameCourse_of_heldOnly {s t : State} (h : HeldOnly s t) (i : EntryId) : SameCourse i s t := by
  obtain ⟨held, hheld⟩ := h i
  exact ⟨by rw [hheld], by rw [hheld]⟩

theorem sameCourse_touch (s : State) (n : LineId) (r : PassRequest) (e : ExchangeEnd) (i : EntryId) :
    SameCourse i s (s.touch n r e) := by
  unfold State.touch
  split
  · split
    · next j _ =>
      split
      · unfold SameCourse
        rw [setEntry_entry]
        split
        · next hji => subst hji; exact ⟨rfl, rfl⟩
        · exact ⟨rfl, rfl⟩
      · exact .refl i s
    · exact .refl i s
  · exact .refl i s

theorem passAnswerOut_entry (s : State) (n : LineId) (f : Frame) (i : EntryId) :
    (s.passAnswerOut n f).entry i = s.entry i := by
  unfold State.passAnswerOut
  split <;> rfl

theorem joinControl_entry (s : State) (n : LineId) (k : ControlKind) (j : EntryId) (node : Nat) (i : EntryId) :
    (s.joinControl n k j node).entry i = s.entry i :=
  entry_congr (joinControl_entries s n k j node) i

theorem sameCourse_clientEnd (s : State) (n : LineId) (w : Work) (e : ExchangeEnd) (i : EntryId) :
    SameCourse i s (s.clientEnd n w e) := by
  cases w with
  | passThrough r =>
    refine (sameCourse_touch s n r e i).trans (sameCourse_of_entry_eq ?_)
    cases e with
    | lineDown => rfl
    | _ => exact passAnswerOut_entry _ n _ i
  | control r =>
    refine sameCourse_of_entry_eq ?_
    unfold State.clientEnd
    dsimp only
    split
    · split
      · exact joinControl_entry s n _ _ _ i
      · rfl
    · split
      · exact joinControl_entry s n _ _ _ i
      · rfl
    · rfl
  | poll r => exact .refl i s

/-- Of an exchange's end, only the Test Monitor writes the course of an entry. -/
theorem sameCourse_handEnd (s : State) (n : LineId) (x : Exchange) (e : ExchangeEnd) (i : EntryId) :
    SameCourse i (s.monitorEnd n x.node x.work.name x.work.isPoll e) (s.handEnd n x e) :=
  (sameCourse_of_heldOnly (heldOnly_captureEnd _ _ _ _) i).trans (sameCourse_clientEnd _ n _ _ i)

theorem sameCourse_settleLine (s : State) (n : LineId) {i : EntryId} (h : ∀ u, (s.entry i).state ≠ .pending u) :
    SameCourse i s (s.settleLine n) :=
  sameCourse_of_entry_eq ((startsOnly_settleLine s n).same i h)

/-! ### The verdict recorded -/

/-- `t` shows the verdict for the entry, with the move R112 and R113 give it from `s`. -/
def VerdictGiven (s t : State) (i : EntryId) (k : Kind) (v : Verdict) (e : Nat) : Prop :=
  (t.entry i).lastVerdict = some (v, k) ∧ (t.entry i).state = afterVerdict s i k v e

theorem afterVerdict_of_kept {s t : State} (h : Kept s t) (i : EntryId) (k : Kind) (v : Verdict) (e : Nat) :
    afterVerdict t i k v e = afterVerdict s i k v e := by
  obtain ⟨-, -, -, -, hgroup, -, hrated, -, -⟩ := h.map i
  unfold afterVerdict State.halts State.group
  rw [hgroup, hrated, h.policy, h.groups]

theorem afterVerdict_ne_pending (s : State) (i : EntryId) (k : Kind) (v : Verdict) (e : Nat) (u : CurrentTest) :
    afterVerdict s i k v e ≠ .pending u := by
  unfold afterVerdict
  dsimp only
  split
  · exact EntryState.noConfusion
  · split <;> exact EntryState.noConfusion

theorem verdictMove_entry (s : State) (i : EntryId) (k : Kind) (v : Verdict) (e : Nat) :
    (s.verdictMove i k v e).entry i = { s.entry i with state := afterVerdict s i k v e } := by
  unfold State.verdictMove afterVerdict
  split
  · rw [raise_entry, setEntryState_entry_self]
  · rw [setEntryState_entry_self]
    rfl

@[simp] theorem raiseIf_entry (s : State) (f : Option EventFlag) (i : EntryId) :
    (s.raiseIf f).entry i = s.entry i := by
  cases f with
  | none => rfl
  | some f => exact raise_entry s f i

theorem recordVerdict_given {s : State} {i : EntryId} {u : CurrentTest} (h : (s.entry i).state.test = some u)
    (v : Verdict) (e : Nat) : VerdictGiven s (s.recordVerdict i v e) i u.kind v e := by
  unfold State.recordVerdict
  rw [h]
  dsimp only
  generalize hw : ({ s.entry i with lastVerdict := some (v, u.kind) } : Entry).recordDone (v.doneFor u.kind)
    s.clockValid s.minute = w
  have hlast : w.lastVerdict = some (v, u.kind) := by subst hw; rfl
  have hflag : Kept s ((s.setEntry i w).raiseIf v.flag) :=
    (kept_setEntry s i w (by subst hw; exact sameIdentity_refl _)).trans (kept_raiseIf _ _)
  have hentry : ((s.setEntry i w).raiseIf v.flag).entry i = w := by rw [raiseIf_entry, setEntry_entry_self]
  generalize (s.setEntry i w).raiseIf v.flag = a at hflag hentry
  have hkept : Kept s ((a.withdrawPoll i).removeControl (a.entry i).line (ControlRequest.isStopFor i) .withdrawn) :=
    (hflag.trans (kept_withdrawPoll a i)).trans (kept_removeControl _ _ _ _)
  obtain ⟨hsame, -⟩ := sameCourse_of_heldOnly ((heldOnly_withdrawPoll a i).trans
    (heldOnly_removeControl _ (a.entry i).line (ControlRequest.isStopFor i) .withdrawn)) i
  unfold VerdictGiven
  rw [verdictMove_entry, afterVerdict_of_kept hkept]
  exact ⟨by rw [hsame, hentry, hlast], rfl⟩

/-- A verdict recorded behind a move of the entry under test, which a report makes before it is judged. -/
theorem recordVerdict_moved_given {s : State} {i : EntryId} {st : EntryState} {u : CurrentTest}
    (h : st.test = some u) (v : Verdict) (e : Nat) :
    VerdictGiven s ((s.setEntryState i st).recordVerdict i v e) i u.kind v e := by
  have hgiven : VerdictGiven (s.setEntryState i st) _ i u.kind v e :=
    recordVerdict_given (by rw [setEntryState_entry_self]; exact h) v e
  obtain ⟨hlast, hstate⟩ := hgiven
  exact ⟨hlast, hstate.trans (afterVerdict_of_kept (kept_setEntryState s i st) i u.kind v e)⟩

/-! ### The lines of the tables of R98 and R99 -/

/-- The current test as any consumed report leaves it. -/
def cleared (u : CurrentTest) : CurrentTest := { u with missed := 0 }

/-- A done report of the kind under test: the first line of both tables. -/
def DoneFor (k : Kind) (r : TestReport) : Prop := r.status.isDone = true ∧ r.status.kind = some k

theorem judge_setEntryState (s : State) (i : EntryId) (st : EntryState) (k : Kind) (r : TestReport) :
    (s.setEntryState i st).judge i k r = s.judge i k r := by
  simp [State.judge]

section Tables

variable (s : State) (i : EntryId) {u : CurrentTest} {r : TestReport}

theorem consumeTesting_done (hdone : DoneFor u.kind r) : s.consumeTesting i u r =
    (s.setEntryState i (.testing (cleared u))).recordVerdict i (s.judge i u.kind r) r.e := by
  rw [← judge_setEntryState s i (.testing (cleared u))]
  exact if_pos hdone

theorem consumeTesting_outage (hdone : ¬ DoneFor u.kind r) (hmains : r.mains = false) : s.consumeTesting i u r =
    (s.setEntryState i (.testing (cleared u))).recordVerdict i .abortedOutage r.e :=
  (if_neg hdone).trans (if_pos hmains)

theorem consumeTesting_present (hdone : ¬ DoneFor u.kind r) (hmains : r.mains = true) : s.consumeTesting i u r =
    if r.status.isRunning then
      if r.status.kind = some u.kind then s.setEntryState i (.testing (cleared u))
      else (s.setEntryState i (.testing (cleared u))).toEnding i { cleared u with stopRequested := false }
    else (s.setEntryState i (.testing (cleared u))).recordVerdict i .noVerdict r.e :=
  (if_neg hdone).trans (if_neg (by simp [hmains]))

theorem consumeEnding_done (hdone : DoneFor u.kind r) : s.consumeEnding i u r =
    (s.setEntryState i (.ending (cleared u))).recordVerdict i (s.judge i u.kind r) r.e := by
  rw [← judge_setEntryState s i (.ending (cleared u))]
  exact if_pos hdone

theorem consumeEnding_outage (hdone : ¬ DoneFor u.kind r) (hmains : r.mains = false) : s.consumeEnding i u r =
    (s.setEntryState i (.ending (cleared u))).recordVerdict i .abortedOutage r.e :=
  (if_neg hdone).trans (if_pos hmains)

theorem consumeEnding_present (hdone : ¬ DoneFor u.kind r) (hmains : r.mains = true) : s.consumeEnding i u r =
    s.setEntryState i (.ending (cleared u)) :=
  (if_neg hdone).trans (if_neg (by simp [hmains]))

end Tables

/-! ### What the Monitor makes of a report (R98, R99) -/

/-- The entry is in TESTING or in ENDING with this current test. -/
def InTest (s : State) (i : EntryId) (u : CurrentTest) : Prop :=
  (s.entry i).state = .testing u ∨ (s.entry i).state = .ending u

section Monitor

variable {s : State} {n : LineId} {node : Nat} {i : EntryId} {u : CurrentTest} {poll : Bool} {r : TestReport}
  {f : List Byte}

theorem monitorEnd_probe_testing (hplace : s.findPlace n node = some i) (hstate : (s.entry i).state = .testing u) :
    s.monitorEnd n node .probe poll (.answered (.report r) f) = s.consumeTesting i u r := by
  simp [State.monitorEnd, hplace, hstate, State.endForTesting]

theorem monitorEnd_probe_ending (hplace : s.findPlace n node = some i) (hstate : (s.entry i).state = .ending u) :
    s.monitorEnd n node .probe poll (.answered (.report r) f) = s.consumeEnding i u r := by
  simp [State.monitorEnd, hplace, hstate, State.endForEnding]

theorem monitorEnd_judged (hplace : s.findPlace n node = some i) (htest : InTest s i u) (hdone : DoneFor u.kind r) :
    VerdictGiven s (s.monitorEnd n node .probe poll (.answered (.report r) f)) i u.kind (s.judge i u.kind r) r.e := by
  obtain hstate | hstate := htest
  · rw [monitorEnd_probe_testing hplace hstate, consumeTesting_done s i hdone]
    exact recordVerdict_moved_given (u := cleared u) rfl _ _
  · rw [monitorEnd_probe_ending hplace hstate, consumeEnding_done s i hdone]
    exact recordVerdict_moved_given (u := cleared u) rfl _ _

theorem monitorEnd_outage (hplace : s.findPlace n node = some i) (htest : InTest s i u) (hdone : ¬ DoneFor u.kind r)
    (hmains : r.mains = false) :
    VerdictGiven s (s.monitorEnd n node .probe poll (.answered (.report r) f)) i u.kind .abortedOutage r.e := by
  obtain hstate | hstate := htest
  · rw [monitorEnd_probe_testing hplace hstate, consumeTesting_outage s i hdone hmains]
    exact recordVerdict_moved_given (u := cleared u) rfl _ _
  · rw [monitorEnd_probe_ending hplace hstate, consumeEnding_outage s i hdone hmains]
    exact recordVerdict_moved_given (u := cleared u) rfl _ _

theorem monitorEnd_noVerdict (hplace : s.findPlace n node = some i) (hstate : (s.entry i).state = .testing u)
    (hdone : ¬ DoneFor u.kind r) (hmains : r.mains = true) (hrun : r.status.isRunning = false) :
    VerdictGiven s (s.monitorEnd n node .probe poll (.answered (.report r) f)) i u.kind .noVerdict r.e := by
  rw [monitorEnd_probe_testing hplace hstate, consumeTesting_present s i hdone hmains, if_neg (by simp [hrun])]
  exact recordVerdict_moved_given (u := cleared u) rfl _ _

theorem monitorEnd_running (hplace : s.findPlace n node = some i) (hstate : (s.entry i).state = .testing u)
    (hdone : ¬ DoneFor u.kind r) (hmains : r.mains = true) (hrun : r.status.isRunning = true)
    (hkind : r.status.kind = some u.kind) :
    s.monitorEnd n node .probe poll (.answered (.report r) f) = s.setEntryState i (.testing (cleared u)) := by
  rw [monitorEnd_probe_testing hplace hstate, consumeTesting_present s i hdone hmains, if_pos hrun, if_pos hkind]

theorem monitorEnd_otherRunning (hplace : s.findPlace n node = some i) (hstate : (s.entry i).state = .testing u)
    (hdone : ¬ DoneFor u.kind r) (hmains : r.mains = true) (hrun : r.status.isRunning = true)
    (hkind : r.status.kind ≠ some u.kind) :
    s.monitorEnd n node .probe poll (.answered (.report r) f) =
      (s.setEntryState i (.testing (cleared u))).toEnding i { cleared u with stopRequested := false } := by
  rw [monitorEnd_probe_testing hplace hstate, consumeTesting_present s i hdone hmains, if_pos hrun, if_neg hkind]

theorem monitorEnd_endingGoesOn (hplace : s.findPlace n node = some i) (hstate : (s.entry i).state = .ending u)
    (hdone : ¬ DoneFor u.kind r) (hmains : r.mains = true) :
    s.monitorEnd n node .probe poll (.answered (.report r) f) = s.setEntryState i (.ending (cleared u)) := by
  rw [monitorEnd_probe_ending hplace hstate, consumeEnding_present s i hdone hmains]

theorem toEnding_course (s : State) (i : EntryId) (u : CurrentTest) :
    ((s.toEnding i u).entry i).lastVerdict = (s.entry i).lastVerdict ∧
      ((s.toEnding i u).entry i).state = .ending u := by
  obtain ⟨hlast, hstate⟩ := sameCourse_of_heldOnly (heldOnly_withdrawPoll (s.setEntryState i (.ending u)) i) i
  rw [setEntryState_entry_self] at hlast hstate
  exact ⟨hlast, hstate⟩

/-! ### What the Monitor makes of a stop answer (R102) -/

theorem monitorEnd_stop_ending {stopped : Bool} {e : Nat} (hplace : s.findPlace n node = some i)
    (hstate : (s.entry i).state = .ending u) :
    s.monitorEnd n node .stopTest poll (.answered (.stop stopped e) f) =
      s.recordVerdict i (stopVerdict u.stopRequested u.remaining stopped) e := by
  simp [State.monitorEnd, hplace, hstate, State.endForEnding]

theorem monitorEnd_stopped_testing {e : Nat} (hplace : s.findPlace n node = some i)
    (hstate : (s.entry i).state = .testing u) :
    s.monitorEnd n node .stopTest poll (.answered (.stop true e) f) = s.recordVerdict i .abortedHeadend e := by
  simp [State.monitorEnd, hplace, hstate, State.endForTesting]

theorem monitorEnd_noTest_testing {e : Nat} (hplace : s.findPlace n node = some i)
    (hstate : (s.entry i).state = .testing u) :
    s.monitorEnd n node .stopTest poll (.answered (.stop false e) f) = s := by
  simp [State.monitorEnd, hplace, hstate, State.endForTesting]

end Monitor

/-! ### What the admitted answers decode to (R91, R133, R188) -/

/-- The form byte and fields have the length of their form and carry the answer. -/
def DecodesTo (name : ReqName) (f : List Byte) (a : NodeAnswer) : Prop :=
  answerLength (byteAt f 0).toNat = some (f.length + 3) ∧ decodeAnswer name f = some a

theorem strictYesNo_boolByte (m : Bool) : strictYesNo (boolByte m) = some m := by
  cases m <;> rfl

theorem decodes_report {status result e : Byte} {v : Nat} {st : ReportStatus} {res : Option ReportResult} (m : Bool)
    (hstatus : ReportStatus.ofCode status.toNat = some st) (hresult : ReportResult.ofCode result.toNat = some res)
    (hv : v ≤ 4095) (he : st = .none → e = 0) (hv0 : st ≠ .durDone → v = 0)
    (hdone : st.isDone = true ↔ res.isSome = true) :
    DecodesTo .probe (reportFields status result e v m) (.report ⟨st, res, e.toNat, v, m⟩) := by
  refine ⟨rfl, ?_⟩
  have hnum : natAt (reportFields status result e v m) 4 2 = v :=
    natAt_front [3, status, result, e] [boolByte m] (List.append_assoc _ _ _) rfl (by omega)
  have hstatus' : ReportStatus.ofCode (byteAt (reportFields status result e v m) 1).toNat = some st := hstatus
  have hresult' : ReportResult.ofCode (byteAt (reportFields status result e v m) 2).toNat = some res := hresult
  have hmains : strictYesNo (byteAt (reportFields status result e v m) 6) = some m := strictYesNo_boolByte m
  have hzero : st = .none → (byteAt (reportFields status result e v m) 3).toNat = 0 := fun h => by
    rw [he h]
    rfl
  have hreport : decodeReport (reportFields status result e v m) = some ⟨st, res, e.toNat, v, m⟩ := by
    unfold decodeReport
    rw [hstatus', hresult', hmains]
    dsimp only
    rw [hnum, if_pos ⟨hv, hzero, hv0, hdone⟩]
    rfl
  have hform : ¬ (byteAt (reportFields status result e v m) 0).toNat ≠ ReqName.probe.form := fun h => h rfl
  rw [decodeAnswer, if_neg hform, hreport]
  rfl

theorem resultCode_spec {res : Byte} (h : res = 1 ∨ res = 2 ∨ res = 3) :
    ∃ r, ReportResult.ofCode res.toNat = some (some r) ∧ (r = .lampFault ↔ res = 2) ∧ (r = .batteryFault ↔ res = 3) := by
  obtain rfl | rfl | rfl := h
  · exact ⟨.pass, rfl, by decide, by decide⟩
  · exact ⟨.lampFault, rfl, by decide, by decide⟩
  · exact ⟨.batteryFault, rfl, by decide, by decide⟩

/-- The status of a report that a test of the kind is under way. -/
def runningStatus : Kind → ReportStatus
  | .function => .funcRunning
  | .duration => .durRunning

/-- The code of that status on the line (section 12.6). -/
def runningCode (k : Kind) : Byte := if k = .function then 1 else 2

theorem runningStatus_spec (k : Kind) : (runningStatus k).isRunning = true ∧ (runningStatus k).isDone = false ∧
    (runningStatus k).kind = some k := by
  cases k <;> exact ⟨rfl, rfl, rfl⟩

theorem decodes_running (k : Kind) (e : Byte) (m : Bool) :
    DecodesTo .probe (reportFields (runningCode k) 0 e 0 m) (.report ⟨runningStatus k, none, e.toNat, 0, m⟩) := by
  cases k <;> exact decodes_report m rfl rfl (by decide) nofun (fun _ => rfl) (by decide)

theorem decodes_funcDone {res : Byte} {r : ReportResult} (e : Byte) (m : Bool)
    (hres : ReportResult.ofCode res.toNat = some (some r)) :
    DecodesTo .probe (reportFields 3 res e 0 m) (.report ⟨.funcDone, some r, e.toNat, 0, m⟩) :=
  decodes_report m rfl hres (by decide) nofun (fun _ => rfl) (by simp [ReportStatus.isDone])

theorem decodes_durDone {res : Byte} {r : ReportResult} {v : Nat} (e : Byte) (m : Bool)
    (hres : ReportResult.ofCode res.toNat = some (some r)) (hv : v ≤ 4095) :
    DecodesTo .probe (reportFields 4 res e v m) (.report ⟨.durDone, some r, e.toNat, v, m⟩) :=
  decodes_report m rfl hres hv nofun (fun h => absurd rfl h) (by simp [ReportStatus.isDone])

/-- A report that shows no test of the kind, neither under way nor done: status NONE, or done of the other kind. -/
def LostReport (k : Kind) (m : Bool) (f : List Byte) (e : Byte) : Prop :=
  (f = reportFields 0 0 0 0 m ∧ e = 0) ∨ ∃ res : Byte, (res = 1 ∨ res = 2 ∨ res = 3) ∧
    ((k = .duration ∧ f = reportFields 3 res e 0 m) ∨
      (k = .function ∧ ∃ v, v ≤ 4095 ∧ f = reportFields 4 res e v m))

theorem decodes_lost {k : Kind} {m : Bool} {f : List Byte} {e : Byte} (h : LostReport k m f e) :
    ∃ r, DecodesTo .probe f (.report r) ∧ r.mains = m ∧ r.e = e.toNat ∧ r.status.isRunning = false ∧ ¬ DoneFor k r := by
  obtain ⟨rfl, rfl⟩ | ⟨res, hres, ⟨rfl, rfl⟩ | ⟨rfl, v, hv, rfl⟩⟩ := h
  · exact ⟨_, decodes_report m rfl rfl (by decide) (fun _ => rfl) (fun _ => rfl) (by decide), rfl, rfl, rfl,
      fun hdone => Bool.noConfusion hdone.1⟩
  · obtain ⟨r, hcode, -, -⟩ := resultCode_spec hres
    exact ⟨_, decodes_funcDone e m hcode, rfl, rfl, rfl, fun hdone => by cases hdone.2⟩
  · obtain ⟨r, hcode, -, -⟩ := resultCode_spec hres
    exact ⟨_, decodes_durDone e m hcode hv, rfl, rfl, rfl, fun hdone => by cases hdone.2⟩

theorem decodes_stopped (e : Byte) : DecodesTo .stopTest [2, 1, e] (.stop true e.toNat) := ⟨rfl, rfl⟩

theorem decodes_noTest : DecodesTo .stopTest [2, 2, 0] (.stop false 0) := ⟨rfl, rfl⟩

/-! ### The verdicts of R109 and R110 by the codes on the line -/

theorem judge_duration {res : Byte} {r : ReportResult} (s : State) (i : EntryId) (e v : Nat) (m : Bool)
    (hlamp : r = .lampFault ↔ res = 2) (hbattery : r = .batteryFault ↔ res = 3) :
    s.judge i .duration ⟨.durDone, some r, e, v, m⟩ =
      if res = 2 then .lamp
      else if e < (s.entry i).rated ∨ res = 3 then .short
      else if s.criteria[(s.entry i).battery] ≠ 0 ∧ v < s.criteria[(s.entry i).battery] then .marginal
      else .pass := by
  simp only [State.judge, judgeDuration, Option.some.injEq, hlamp, hbattery]

theorem judge_function {res : Byte} {r : ReportResult} (s : State) (i : EntryId) (e : Nat) (m : Bool)
    (hlamp : r = .lampFault ↔ res = 2) (hbattery : r = .batteryFault ↔ res = 3) :
    s.judge i .function ⟨.funcDone, some r, e, 0, m⟩ =
      if res = 2 then .lamp else if res = 3 then .short else .pass := by
  simp only [← hlamp, ← hbattery]
  cases r <;> rfl

/-! ### From the answer heard to the end of the step -/

/-- A line awaits the answer to a request of this name, and its place is the entry's. -/
structure Awaits (s : State) (n : LineId) (x : Exchange) (i : EntryId) (name : ReqName) : Prop where
  engine : ∃ w, (s.line n).engine = .awaiting x w
  node : x.node < 256
  place : s.findPlace n x.node = some i
  name : x.work.name = name

/-- What the Monitor makes of the answer, which it takes when the engine has left the exchange (R138). -/
def monitored (s : State) (n : LineId) (x : Exchange) (name : ReqName) (a : NodeAnswer) (f : List Byte) : State :=
  (s.setEngine n .gap).monitorEnd n x.node name x.work.isPoll (.answered a f)

/-- The answer ends the entry's test with the verdict. -/
def Ends (s : State) (n : LineId) (x : Exchange) (i : EntryId) (k : Kind) (f : List Byte) (v : Verdict) (e : Byte) :
    Prop :=
  ∃ t, exec (heardAnswer n x f) s = .next t ∧ VerdictGiven s t i k v e.toNat

/-- The answer gives no verdict and leaves the entry in the state. -/
def GoesOn (s : State) (n : LineId) (x : Exchange) (i : EntryId) (f : List Byte) (st : EntryState) : Prop :=
  ∃ t, exec (heardAnswer n x f) s = .next t ∧ (t.entry i).lastVerdict = (s.entry i).lastVerdict ∧
    (t.entry i).state = st

section Step

variable {s : State} {n : LineId} {x : Exchange} {i : EntryId} {name : ReqName} {a : NodeAnswer} {f : List Byte}

theorem exec_heardAnswer (hw : Awaits s n x i name) (hf : DecodesTo name f a) :
    exec (heardAnswer n x f) s = .next ((s.endExchange n x (.answered a f)).settleLine n) := by
  obtain ⟨⟨w, hengine⟩, hnode, -, rfl⟩ := hw
  obtain ⟨hlength, hdecode⟩ := hf
  have hheard := checkAnswer_heard x.node x.number x.work.name f hnode hlength
  rw [hdecode] at hheard
  have hexec (heard : List Byte) : exec (.lineAnswerReceived n heard) s = .next (s.answerHeard n heard) := rfl
  rw [heardAnswer, hexec, State.answerHeard, hengine]
  dsimp only
  rw [hheard]

/-- The step leaves the entry's course as the Monitor left it, unless that is PENDING. -/
theorem heardAnswer_course (hw : Awaits s n x i name) (hf : DecodesTo name f a)
    (hp : ∀ u, ((monitored s n x name a f).entry i).state ≠ .pending u) :
    ∃ t, exec (heardAnswer n x f) s = .next t ∧ SameCourse i (monitored s n x name a f) t := by
  refine ⟨_, exec_heardAnswer hw hf, ?_⟩
  have hend : SameCourse i (monitored s n x name a f) (s.endExchange n x (.answered a f)) := by
    rw [monitored, ← hw.name]
    exact sameCourse_handEnd (s.setEngine n .gap) n x (.answered a f) i
  exact hend.trans (sameCourse_settleLine _ n fun u hu => hp u (hend.2.symm.trans hu))

theorem ends_of_monitored {k : Kind} {v : Verdict} {e : Byte} (hw : Awaits s n x i name) (hf : DecodesTo name f a)
    (hv : VerdictGiven s (monitored s n x name a f) i k v e.toNat) : Ends s n x i k f v e := by
  obtain ⟨hlast, hstate⟩ := hv
  obtain ⟨t, hexec, hlast', hstate'⟩ := heardAnswer_course hw hf fun u hu =>
    afterVerdict_ne_pending s i k v e.toNat u (hstate.symm.trans hu)
  exact ⟨t, hexec, hlast'.trans hlast, hstate'.trans hstate⟩

theorem goesOn_of_monitored {st : EntryState} (hw : Awaits s n x i name) (hf : DecodesTo name f a)
    (hlast : ((monitored s n x name a f).entry i).lastVerdict = (s.entry i).lastVerdict)
    (hstate : ((monitored s n x name a f).entry i).state = st) (hp : ∀ u, st ≠ .pending u) : GoesOn s n x i f st := by
  obtain ⟨t, hexec, hlast', hstate'⟩ := heardAnswer_course hw hf fun u hu => hp u (hstate.symm.trans hu)
  exact ⟨t, hexec, hlast'.trans hlast, hstate'.trans hstate⟩

end Step

/-! ### Reports, case by case -/

section Reports

variable {s : State} {n : LineId} {x : Exchange} {i : EntryId} {u : CurrentTest}

theorem durDone_ends (hw : Awaits s n x i .probe) (htest : InTest s i u) (hkind : u.kind = .duration) {res : Byte}
    (hres : res = 1 ∨ res = 2 ∨ res = 3) (e : Byte) {v : Nat} (hv : v ≤ 4095) (m : Bool) :
    Ends s n x i u.kind (reportFields 4 res e v m)
      (if res = 2 then .lamp
        else if e.toNat < (s.entry i).rated ∨ res = 3 then .short
        else if s.criteria[(s.entry i).battery] ≠ 0 ∧ v < s.criteria[(s.entry i).battery] then .marginal
        else .pass) e := by
  obtain ⟨r, hcode, hlamp, hbattery⟩ := resultCode_spec hres
  rw [← judge_duration s i e.toNat v m hlamp hbattery, ← hkind]
  exact ends_of_monitored hw (decodes_durDone e m hcode hv)
    (monitorEnd_judged (s := s.setEngine n .gap) hw.place htest ⟨rfl, by rw [hkind]; rfl⟩)

theorem funcDone_ends (hw : Awaits s n x i .probe) (htest : InTest s i u) (hkind : u.kind = .function) {res : Byte}
    (hres : res = 1 ∨ res = 2 ∨ res = 3) (e : Byte) (m : Bool) :
    Ends s n x i u.kind (reportFields 3 res e 0 m) (if res = 2 then .lamp else if res = 3 then .short else .pass) e := by
  obtain ⟨r, hcode, hlamp, hbattery⟩ := resultCode_spec hres
  rw [← judge_function s i e.toNat m hlamp hbattery, ← hkind]
  exact ends_of_monitored hw (decodes_funcDone e m hcode)
    (monitorEnd_judged (s := s.setEngine n .gap) hw.place htest ⟨rfl, by rw [hkind]; rfl⟩)

/-- A running report is of no done test. -/
theorem not_doneFor_running (k l : Kind) (e : Nat) (m : Bool) : ¬ DoneFor l ⟨runningStatus k, none, e, 0, m⟩ := by
  obtain ⟨-, hdone, -⟩ := runningStatus_spec k
  exact fun h => Bool.noConfusion (hdone.symm.trans h.1)

theorem running_outage_ends (hw : Awaits s n x i .probe) (htest : InTest s i u) (k : Kind) (e : Byte) :
    Ends s n x i u.kind (reportFields (runningCode k) 0 e 0 false) .abortedOutage e :=
  ends_of_monitored hw (decodes_running k e false)
    (monitorEnd_outage (s := s.setEngine n .gap) hw.place htest (not_doneFor_running k u.kind _ _) rfl)

theorem lost_outage_ends (hw : Awaits s n x i .probe) (htest : InTest s i u) {f : List Byte} {e : Byte}
    (hlost : LostReport u.kind false f e) : Ends s n x i u.kind f .abortedOutage e := by
  obtain ⟨r, hdecode, hmains, he, -, hdone⟩ := decodes_lost hlost
  refine ends_of_monitored hw hdecode ?_
  rw [← he]
  exact monitorEnd_outage (s := s.setEngine n .gap) hw.place htest hdone hmains

theorem running_testing_goesOn (hw : Awaits s n x i .probe) (hstate : (s.entry i).state = .testing u) (e : Byte) :
    GoesOn s n x i (reportFields (runningCode u.kind) 0 e 0 true) (.testing (cleared u)) := by
  obtain ⟨hrun, -, hkind⟩ := runningStatus_spec u.kind
  have hmonitor := monitorEnd_running (s := s.setEngine n .gap) (poll := x.work.isPoll)
    (f := reportFields (runningCode u.kind) 0 e 0 true) (r := ⟨runningStatus u.kind, none, e.toNat, 0, true⟩)
    hw.place hstate (not_doneFor_running u.kind u.kind _ _) rfl hrun hkind
  refine goesOn_of_monitored hw (decodes_running u.kind e true) ?_ ?_ (fun _ => EntryState.noConfusion)
  · rw [monitored, hmonitor, setEntryState_entry_self, setEngine_entry]
  · rw [monitored, hmonitor, setEntryState_entry_self]

theorem otherRunning_testing_goesOn (hw : Awaits s n x i .probe) (hstate : (s.entry i).state = .testing u) {k : Kind}
    (hother : k ≠ u.kind) (e : Byte) :
    GoesOn s n x i (reportFields (runningCode k) 0 e 0 true)
      (.ending { cleared u with stopRequested := false }) := by
  obtain ⟨hrun, -, hkind⟩ := runningStatus_spec k
  have hmonitor := monitorEnd_otherRunning (s := s.setEngine n .gap) (poll := x.work.isPoll)
    (f := reportFields (runningCode k) 0 e 0 true) (r := ⟨runningStatus k, none, e.toNat, 0, true⟩)
    hw.place hstate (not_doneFor_running k u.kind _ _) rfl hrun (fun h => hother (Option.some.inj (hkind.symm.trans h)))
  obtain ⟨hlast, hending⟩ := toEnding_course ((s.setEngine n .gap).setEntryState i (.testing (cleared u))) i
    { cleared u with stopRequested := false }
  rw [← hmonitor] at hlast hending
  rw [setEntryState_entry_self, setEngine_entry] at hlast
  exact goesOn_of_monitored hw (decodes_running k e true) hlast hending (fun _ => EntryState.noConfusion)

theorem lost_testing_ends (hw : Awaits s n x i .probe) (hstate : (s.entry i).state = .testing u) {f : List Byte}
    {e : Byte} (hlost : LostReport u.kind true f e) : Ends s n x i u.kind f .noVerdict e := by
  obtain ⟨r, hdecode, hmains, he, hrun, hdone⟩ := decodes_lost hlost
  refine ends_of_monitored hw hdecode ?_
  rw [← he]
  exact monitorEnd_noVerdict (s := s.setEngine n .gap) hw.place hstate hdone hmains hrun

/-- With mains present, a report that is not judged leaves an entry in ENDING there. -/
theorem ending_goesOn (hw : Awaits s n x i .probe) (hstate : (s.entry i).state = .ending u) {f : List Byte}
    {r : TestReport} (hdecode : DecodesTo .probe f (.report r)) (hdone : ¬ DoneFor u.kind r) (hmains : r.mains = true) :
    GoesOn s n x i f (.ending (cleared u)) := by
  have hmonitor := monitorEnd_endingGoesOn (s := s.setEngine n .gap) (poll := x.work.isPoll) (f := f)
    hw.place hstate hdone hmains
  refine goesOn_of_monitored hw hdecode ?_ ?_ (fun _ => EntryState.noConfusion)
  · rw [monitored, hmonitor, setEntryState_entry_self, setEngine_entry]
  · rw [monitored, hmonitor, setEntryState_entry_self]

theorem running_ending_goesOn (hw : Awaits s n x i .probe) (hstate : (s.entry i).state = .ending u) (k : Kind)
    (e : Byte) : GoesOn s n x i (reportFields (runningCode k) 0 e 0 true) (.ending (cleared u)) :=
  ending_goesOn hw hstate (decodes_running k e true) (not_doneFor_running k u.kind _ _) rfl

theorem lost_ending_goesOn (hw : Awaits s n x i .probe) (hstate : (s.entry i).state = .ending u) {f : List Byte}
    {e : Byte} (hlost : LostReport u.kind true f e) : GoesOn s n x i f (.ending (cleared u)) := by
  obtain ⟨r, hdecode, hmains, -, -, hdone⟩ := decodes_lost hlost
  exact ending_goesOn hw hstate hdecode hdone hmains

/-! ### Stop answers, case by case: in ENDING the table of R102 is `stopVerdict` -/

theorem stop_ending_ends (hw : Awaits s n x i .stopTest) (hstate : (s.entry i).state = .ending u) {f : List Byte}
    {stopped : Bool} {e : Byte} (hdecode : DecodesTo .stopTest f (.stop stopped e.toNat)) :
    Ends s n x i u.kind f (stopVerdict u.stopRequested u.remaining stopped) e := by
  refine ends_of_monitored hw hdecode ?_
  rw [monitored, monitorEnd_stop_ending (s := s.setEngine n .gap) hw.place hstate]
  exact recordVerdict_given (s := s.setEngine n .gap) (by rw [setEngine_entry, hstate]; rfl) _ _

theorem stopped_testing_ends (hw : Awaits s n x i .stopTest) (hstate : (s.entry i).state = .testing u) (e : Byte) :
    Ends s n x i u.kind [2, 1, e] .abortedHeadend e := by
  refine ends_of_monitored hw (decodes_stopped e) ?_
  rw [monitored, monitorEnd_stopped_testing (s := s.setEngine n .gap) hw.place hstate]
  exact recordVerdict_given (s := s.setEngine n .gap) (by rw [setEngine_entry, hstate]; rfl) _ _

theorem noTest_testing_goesOn (hw : Awaits s n x i .stopTest) (hstate : (s.entry i).state = .testing u) :
    GoesOn s n x i [2, 2, 0] (.testing u) := by
  have hmonitor := monitorEnd_noTest_testing (s := s.setEngine n .gap) (poll := x.work.isPoll) (f := [2, 2, 0])
    (e := 0) hw.place hstate
  refine goesOn_of_monitored hw decodes_noTest ?_ ?_ (fun _ => EntryState.noConfusion)
  · rw [monitored, hmonitor, setEngine_entry]
  · rw [monitored, hmonitor, setEngine_entry, hstate]

end Reports

/-! ### The statement -/

/-- Settles O24: the answer is decoded, the Monitor's line of R98, R99 or R102 gives the verdict or the next state, and
the rest of the exchange's end does not touch either. -/
theorem durationReportIsJudged : Obligations.DurationReportIsJudged := by
  intro s n x w i u hengine hnode hplace
  refine ⟨fun hname => ?_, fun hname => ?_⟩
  · have hw : Awaits s n x i .probe := ⟨⟨w, hengine⟩, hnode, hplace, hname⟩
    refine ⟨fun htest => ⟨?_, ?_, ?_, ?_⟩, fun hstate => ⟨?_, ?_, ?_⟩, fun hstate => ⟨?_, ?_⟩⟩
    · exact fun hkind res e v m hres hv => durDone_ends hw htest hkind hres e hv m
    · exact fun hkind res e m hres => funcDone_ends hw htest hkind hres e m
    · exact fun k e => running_outage_ends hw htest k e
    · exact fun f e hlost => lost_outage_ends hw htest hlost
    · exact fun e => running_testing_goesOn hw hstate e
    · exact fun k e hother => otherRunning_testing_goesOn hw hstate hother e
    · exact fun f e hlost => lost_testing_ends hw hstate hlost
    · exact fun k e => running_ending_goesOn hw hstate k e
    · exact fun f e hlost => lost_ending_goesOn hw hstate hlost
  · have hw : Awaits s n x i .stopTest := ⟨⟨w, hengine⟩, hnode, hplace, hname⟩
    refine ⟨fun hstate => ⟨?_, ?_⟩, fun hstate => ⟨?_, ?_⟩⟩
    · exact fun e => stop_ending_ends hw hstate (decodes_stopped e)
    · exact stop_ending_ends (e := 0) hw hstate decodes_noTest
    · exact fun e => stopped_testing_ends hw hstate e
    · exact noTest_testing_goesOn hw hstate

end Sys2Proof.ReportsAndStops
end

section
/-! One walk through the shared operations for every relation between a state and the next: a relation that is reflexive
and transitive and that holds of the updates an operation is made of holds of the operation. -/

namespace Sys2Proof.Walks

open Sys2Proof Sys2Proof.Machine Sys2Proof.Machine.Safety Sys2Proof.Laws

variable {R : State → State → Prop}

/-- What a relation must hold of to hold of the work of the Test Monitor: the updates it is made of. -/
structure TestWork (R : State → State → Prop) : Prop where
  refl          : ∀ s, R s s
  trans         : ∀ {s t u}, R s t → R t u → R s u
  setEntry      : ∀ s i e, R s (s.setEntry i e)
  raise         : ∀ s f, R s (s.raise f)
  joinPoll      : ∀ s i, R s (s.joinPoll i)
  withdrawPoll  : ∀ s i, R s (s.withdrawPoll i)
  removeControl : ∀ s n p, R s (s.removeControl n p .withdrawn)

/-- What a relation must hold of to hold of the service of a line: a stop that joins a queue with room, and a grant of
an IDLE line. -/
structure LineWork (R : State → State → Prop) : Prop where
  refl        : ∀ s, R s s
  trans       : ∀ {s t u}, R s t → R t u → R s u
  joinControl : ∀ s n k i node, (s.line n).control.length < 4 → R s (s.joinControl n k i node)
  grantTo     : ∀ s n c, (s.line n).engine = .idle → R s (s.grantTo n c)

/-! ### Folds -/

theorem foldl_walk (refl : ∀ s, R s s) (trans : ∀ {s t u}, R s t → R t u → R s u) {α : Type} {f : State → α → State}
    (h : ∀ s a, R s (f s a)) (l : List α) (s : State) : R s (l.foldl f s) := by
  induction l generalizing s with
  | nil => exact refl s
  | cons a l ih => exact trans (h s a) (ih (f s a))

/-! ### The Test Monitor -/

namespace TestWork

theorem forEntries (w : TestWork R) {f : EntryId → State → State} (h : ∀ i s, R s (f i s)) (s : State) :
    R s (forEntries f s) := foldl_walk w.refl w.trans (fun t i => h i t) _ s

theorem forLines (w : TestWork R) {f : LineId → State → State} (h : ∀ n s, R s (f n s)) (s : State) :
    R s (forLines f s) := foldl_walk w.refl w.trans (fun t n => h n t) _ s

theorem setEntryState (w : TestWork R) (s : State) (i : EntryId) (st : EntryState) : R s (s.setEntryState i st) :=
  w.setEntry s i _

theorem takeBack (w : TestWork R) (s : State) (i : EntryId) (r : BlockReason) : R s (s.takeBack i r) :=
  w.setEntry s i _

theorem raiseIf (w : TestWork R) (s : State) (f : Option EventFlag) : R s (s.raiseIf f) := by
  cases f with
  | none => exact w.refl s
  | some f => exact w.raise s f

theorem verdictMove (w : TestWork R) (s : State) (i : EntryId) (k : Kind) (v : Verdict) (e : Nat) :
    R s (s.verdictMove i k v e) := by
  unfold State.verdictMove
  split
  · exact w.trans (w.setEntryState s i _) (w.raise _ _)
  · exact w.setEntryState s i _

theorem recordVerdict (w : TestWork R) (s : State) (i : EntryId) (v : Verdict) (e : Nat) :
    R s (s.recordVerdict i v e) := by
  unfold State.recordVerdict
  split
  · exact w.refl s
  · exact w.trans (w.trans (w.trans (w.trans (w.setEntry s i _) (w.raiseIf _ _)) (w.withdrawPoll _ _))
      (w.removeControl _ _ _)) (w.verdictMove _ _ _ _ _)

theorem failStart (w : TestWork R) (s : State) (i : EntryId) (t : CurrentTest) (v : Verdict) :
    R s (s.failStart i t v) := by
  unfold State.failStart
  dsimp only
  split
  · exact w.trans (w.trans (w.trans (w.setEntry s i _) (w.raiseIf _ _)) (w.setEntryState _ i _)) (w.raise _ _)
  · exact w.trans (w.trans (w.setEntry s i _) (w.raiseIf _ _)) (w.setEntryState _ i _)

theorem startEnd (w : TestWork R) (s : State) (i : EntryId) (t : CurrentTest) (e : ExchangeEnd) :
    R s (s.startEnd i t e) := by
  unfold State.startEnd
  split
  · exact w.setEntry s i _
  · exact w.failStart s i t _
  · exact w.failStart s i t _
  · exact w.failStart s i t _
  · exact w.takeBack s i _
  · exact w.takeBack s i _

theorem toEnding (w : TestWork R) (s : State) (i : EntryId) (t : CurrentTest) : R s (s.toEnding i t) :=
  w.trans (w.setEntryState s i _) (w.withdrawPoll _ i)

theorem consumeTesting (w : TestWork R) (s : State) (i : EntryId) (t : CurrentTest) (r : TestReport) :
    R s (s.consumeTesting i t r) := by
  have h := w.setEntryState s i (.testing { t with missed := 0 })
  unfold State.consumeTesting
  dsimp only
  split
  · exact w.trans h (w.recordVerdict _ _ _ _)
  split
  · exact w.trans h (w.recordVerdict _ _ _ _)
  split
  · split
    · exact h
    · exact w.trans h (w.toEnding _ _ _)
  · exact w.trans h (w.recordVerdict _ _ _ _)

theorem consumeEnding (w : TestWork R) (s : State) (i : EntryId) (t : CurrentTest) (r : TestReport) :
    R s (s.consumeEnding i t r) := by
  have h := w.setEntryState s i (.ending { t with missed := 0 })
  unfold State.consumeEnding
  dsimp only
  split
  · exact w.trans h (w.recordVerdict _ _ _ _)
  split
  · exact w.trans h (w.recordVerdict _ _ _ _)
  · exact h

theorem missPoll (w : TestWork R) (s : State) (i : EntryId) (t : CurrentTest) : R s (s.missPoll i t) := by
  have h := w.setEntryState s i (.testing { t with missed := t.missed + 1 })
  unfold State.missPoll
  dsimp only
  split
  · exact w.trans h (w.recordVerdict _ _ _ _)
  · exact h

theorem endForTesting (w : TestWork R) (s : State) (i : EntryId) (t : CurrentTest) (name : ReqName) (poll : Bool)
    (e : ExchangeEnd) : R s (s.endForTesting i t name poll e) := by
  have hmiss : R s (if poll then s.missPoll i t else s) := by
    split
    · exact w.missPoll s i t
    · exact w.refl s
  have hjoin : R s (if poll then s.joinPoll i else s) := by
    split
    · exact w.joinPoll s i
    · exact w.refl s
  unfold State.endForTesting
  split
  · split
    · exact w.consumeTesting _ _ _ _
    · exact w.refl s
    · exact hmiss
    · exact hmiss
    · exact hjoin
    · exact hjoin
  · split
    · exact w.recordVerdict _ _ _ _
    · exact w.refl s
  · exact w.refl s

theorem endForEnding (w : TestWork R) (s : State) (i : EntryId) (t : CurrentTest) (name : ReqName)
    (e : ExchangeEnd) : R s (s.endForEnding i t name e) := by
  unfold State.endForEnding
  split
  · split
    · exact w.consumeEnding _ _ _ _
    · exact w.refl s
  · split
    · exact w.recordVerdict _ _ _ _
    · exact w.refl s
    · exact w.recordVerdict _ _ _ _
    · exact w.recordVerdict _ _ _ _
    · exact w.refl s
    · exact w.refl s
  · exact w.refl s

theorem monitorEnd (w : TestWork R) (s : State) (n : LineId) (node : Nat) (name : ReqName) (poll : Bool)
    (e : ExchangeEnd) : R s (s.monitorEnd n node name poll e) := by
  unfold State.monitorEnd
  split
  · exact w.refl s
  · split
    · unfold State.endForPending
      split
      · exact w.startEnd _ _ _ _
      · exact w.refl s
    · exact w.endForTesting _ _ _ _ _ _
    · exact w.endForEnding _ _ _ _ _
    all_goals exact w.refl s

theorem remainingOut (w : TestWork R) (s : State) (i : EntryId) (t : CurrentTest) : R s (s.remainingOut i t) := by
  unfold State.remainingOut
  dsimp only
  split
  · exact w.trans (w.setEntryState s i _) (w.recordVerdict _ _ _ _)
  · exact w.toEnding s i _

theorem minuteEntry (w : TestWork R) (i : EntryId) (s : State) : R s (s.minuteEntry i) := by
  unfold State.minuteEntry
  split
  · split
    · exact w.remainingOut _ _ _
    · exact w.setEntryState _ _ _
  · split
    · exact w.setEntryState _ _ _
    · exact w.setEntryState _ _ _
  · split
    · exact w.refl s
    · split
      · exact w.setEntryState _ _ _
      · exact w.setEntryState _ _ _
  all_goals exact w.refl s

theorem pollDue (w : TestWork R) (s : State) (i : EntryId) : R s (s.pollDue i) := by
  unfold State.pollDue
  split
  · exact w.trans (w.setEntryState _ _ _) (w.joinPoll _ _)
  · exact w.refl s

theorem resetEntry (w : TestWork R) (i : EntryId) (s : State) : R s (s.resetEntry i) := by
  unfold State.resetEntry
  split
  · exact w.setEntry _ _ _
  · exact w.refl s

theorem resetLineEntries (w : TestWork R) (s : State) (n : LineId) : R s (s.resetLineEntries n) := by
  refine w.forEntries (fun i t => ?_) s
  split
  · exact w.resetEntry i t
  · exact w.refl t

theorem touch (w : TestWork R) (s : State) (n : LineId) (r : PassRequest) (e : ExchangeEnd) : R s (s.touch n r e) := by
  unfold State.touch
  split
  · split
    · split
      · exact w.setEntry _ _ _
      · exact w.refl s
    · exact w.refl s
  · exact w.refl s

theorem takeBackUnsent (w : TestWork R) (s : State) (i : EntryId) (r : BlockReason) : R s (s.takeBackUnsent i r) := by
  unfold State.takeBackUnsent
  split
  · split
    · exact w.refl s
    · exact w.takeBack _ _ _
  · exact w.refl s

theorem takeBackAtLoss (w : TestWork R) (s : State) (n : LineId) (i : EntryId) : R s (s.takeBackAtLoss n i) :=
  w.trans (w.removeControl s n _) (w.takeBack _ _ _)

theorem lossEntry (w : TestWork R) (n : LineId) (i : EntryId) (s : State) : R s (s.lossEntry n i) := by
  unfold State.lossEntry
  split
  · split
    · split
      · exact w.recordVerdict _ _ _ _
      · split
        · exact w.takeBackAtLoss _ _ _
        · exact w.refl s
    · exact w.recordVerdict _ _ _ _
    · exact w.recordVerdict _ _ _ _
    all_goals exact w.refl s
  · exact w.refl s

theorem restoreEntry (w : TestWork R) (n : LineId) (x : Nat) (i : EntryId) (s : State) : R s (s.restoreEntry n x i) := by
  unfold State.restoreEntry
  dsimp only
  split
  · exact w.setEntry _ _ _
  · exact w.refl s

theorem evaluate (w : TestWork R) (s : State) (i : EntryId) : R s (s.evaluate i) := by
  unfold State.evaluate
  dsimp only
  split
  · exact w.trans (w.setEntry _ _ _) (w.raise _ _)
  · exact w.setEntry _ _ _

theorem entryAccepted (w : TestWork R) (s : State) (i : EntryId) (name : ReqName) : R s (s.entryAccepted i name) := by
  unfold State.entryAccepted
  split
  · exact w.setEntry _ _ _
  · exact w.setEntry _ _ _
  · unfold State.stopAccepted
    split
    · exact w.toEnding _ _ _
    · exact w.setEntryState _ _ _
    all_goals exact w.refl s
  all_goals exact w.refl s

end TestWork

/-! ### The service of a line -/

namespace LineWork

theorem placeStopsUpTo (w : LineWork R) (k : Nat) (n : LineId) (s : State) : R s (s.placeStopsUpTo k n) := by
  induction k generalizing s with
  | zero => exact w.refl s
  | succ k ih =>
    unfold State.placeStopsUpTo
    split
    · next h =>
      split
      · exact w.trans (w.joinControl s n _ _ _ h) (ih _)
      · exact w.refl s
    · exact w.refl s

theorem placeStops (w : LineWork R) (s : State) (n : LineId) : R s (s.placeStops n) := w.placeStopsUpTo 4 n s

theorem idle_of_isIdle {g : Engine} (h : g.isIdle = true) : g = .idle := by
  cases g with
  | idle => rfl
  | _ => cases h

theorem grant (w : LineWork R) (s : State) (n : LineId) : R s (s.grant n) := by
  unfold State.grant
  split
  · next h =>
    split
    · exact w.grantTo s n _ (idle_of_isIdle h)
    · exact w.refl s
  · exact w.refl s

theorem settleLine (w : LineWork R) (s : State) (n : LineId) : R s (s.settleLine n) :=
  w.trans (w.trans (w.placeStops s n) (w.grant _ n)) (w.placeStops _ n)

theorem settleLines (w : LineWork R) (s : State) : R s s.settleLines :=
  foldl_walk w.refl w.trans (fun t n => w.settleLine t n) _ s

end LineWork

theorem pollEnd_walk (w : TestWork R) (l : LineWork R) (s : State) (i : EntryId) : R s (s.pollEnd i) :=
  w.trans (w.pollDue s i) (l.settleLine _ _)

theorem pollSecond_walk (w : TestWork R) (l : LineWork R) (i : EntryId) (s : State) : R s (s.pollSecond i) := by
  unfold State.pollSecond
  split
  · split
    · exact pollEnd_walk w l _ _
    · exact w.setEntryState _ _ _
  · exact w.refl s

end Sys2Proof.Walks
end

section
/-! What work on the lines keeps in order (R141 to R147, R154, R155, R163, R184, R185): the bounds of the queues, the
NOTICE law, the supply, the polls and the capture. One relation, `Orderly`, carries the five laws through an operation;
each shared operation has one lemma that says it is orderly. -/

namespace Sys2Proof.LineOrder

open Sys2Proof Sys2Proof.Machine Sys2Proof.Machine.Safety Sys2Proof.Laws Sys2Proof.Walks

/-! ### The work that stands on one line -/

/-- Waiting head-end requests, answers owed and a head-end exchange in flight, which R141 bounds together. -/
def load (l : LineEngine) : Nat := l.pass.length + l.backlog.length + passInFlight l

/-- The polls of one line in order of map index, one for each entry (R143). -/
def PollsSorted (l : LineEngine) : Prop := l.polls.Pairwise fun a b => a.entry.val < b.entry.val

/-- The queues are in their bounds, and line `n` has room for `k` answers more. -/
def Room (n : LineId) (k : Nat) (s : State) : Prop := QueuesBounded s ∧ load (s.line n) + k ≤ 9

theorem room_zero {n : LineId} {s : State} : Room n 0 s ↔ QueuesBounded s :=
  ⟨fun h => h.1, fun h => ⟨h, (h.2.2 n).2.2⟩⟩

theorem Room.mono {n : LineId} {a b : Nat} {s : State} (h : Room n a s) (hab : b ≤ a) : Room n b s :=
  ⟨h.1, by have := h.2; omega⟩

/-- `l'` is `l` after work that adds no head-end request and no answer to the line. -/
structure LineCalm (l l' : LineEngine) : Prop where
  pass    : l'.pass.length ≤ l.pass.length
  control : l'.control.length ≤ max l.control.length 4
  load    : load l' ≤ load l
  backlog : ∀ f ∈ l'.backlog, f ∈ l.backlog
  supply  : supplyOk l → supplyOk l'
  polls   : PollsSorted l → PollsSorted l'

/-! ### The relation -/

/-- An operation that keeps the five laws; it needs room for `a` answers on line `n` and leaves room for `b`. -/
structure Orderly (n : LineId) (a b : Nat) (s t : State) : Prop where
  room    : Room n a s → Room n b t
  notice  : NoticeLaw s → NoticeLaw t
  supply  : SupplyLaw s → SupplyLaw t
  polls   : PollsLaw s → PollsLaw t
  capture : CaptureLaw s → CaptureLaw t

theorem Orderly.refl (n : LineId) (a : Nat) (s : State) : Orderly n a a s s := ⟨id, id, id, id, id⟩

theorem Orderly.trans {n : LineId} {a b c : Nat} {s t u : State} (h : Orderly n a b s t) (k : Orderly n b c t u) :
    Orderly n a c s u :=
  ⟨k.room ∘ h.room, k.notice ∘ h.notice, k.supply ∘ h.supply, k.polls ∘ h.polls, k.capture ∘ h.capture⟩

/-- More room than needed does not hurt. -/
theorem Orderly.of_more {n : LineId} {a b c : Nat} {s t : State} (h : Orderly n a b s t) (hac : a ≤ c) :
    Orderly n c b s t :=
  { h with room := fun r => h.room (r.mono hac) }

theorem Orderly.queues {n : LineId} {b : Nat} {s t : State} (h : Orderly n 0 b s t) (q : QueuesBounded s) :
    QueuesBounded t := (h.room (room_zero.mpr q)).1

/-- Work that adds no answer to any line: whatever room there was is left. -/
def Calm (s t : State) : Prop := ∀ n a, Orderly n a a s t

theorem Calm.refl (s : State) : Calm s s := fun n a => .refl n a s

theorem Calm.trans {s t u : State} (h : Calm s t) (k : Calm t u) : Calm s u := fun n a => (h n a).trans (k n a)

/-! ### The primitive updates -/

/-- The laws read the queues, the lines, the notice marks, the answer held and the capture. -/
theorem calm_of_eq {s t : State} (hrx : t.rx = s.rx) (htx : t.tx = s.tx) (hl : t.lines = s.lines)
    (hp : t.noticePending = s.noticePending) (ho : t.noticeOwed = s.noticeOwed) (hm : t.mgmt = s.mgmt)
    (hc : t.capture = s.capture) : Calm s t := by
  intro n a
  refine ⟨?_, ?_, ?_, ?_, ?_⟩
  · simp only [Room, QueuesBounded, line_congr hl, hrx, htx]; exact id
  · simp only [NoticeLaw, noticesQueued, heldAnswer, line_congr hl, htx, hp, ho, hm]; exact id
  · simp only [SupplyLaw, line_congr hl]; exact id
  · simp only [PollsLaw, line_congr hl]; exact id
  · simp only [CaptureLaw, hc]; exact id

theorem calm_setEntry (s : State) (i : EntryId) (e : Entry) : Calm s (s.setEntry i e) :=
  calm_of_eq rfl rfl rfl rfl rfl rfl rfl

theorem calm_setEntryState (s : State) (i : EntryId) (st : EntryState) : Calm s (s.setEntryState i st) :=
  calm_setEntry s i _

theorem calm_takeBack (s : State) (i : EntryId) (r : BlockReason) : Calm s (s.takeBack i r) := calm_setEntry s i _

theorem calm_setBlock (s : State) (i : EntryId) (r : BlockReason) : Calm s (s.setBlock i r) := calm_setEntry s i _

theorem LineCalm.refl (l : LineEngine) : LineCalm l l :=
  ⟨Nat.le.refl, Nat.le_max_left _ _, Nat.le.refl, fun _ h => h, id, id⟩

/-- Two line settings that keep the laws of one line: any field but these six is free. -/
theorem lineCalm_of_eq {l l' : LineEngine} (hp : l'.pass = l.pass) (hc : l'.control.length ≤ max l.control.length 4)
    (hb : l'.backlog = l.backlog) (hl : l'.polls = l.polls) (hx : passInFlight l' ≤ passInFlight l)
    (hs : supplyOk l → supplyOk l') : LineCalm l l' :=
  ⟨Nat.le_of_eq (congrArg List.length hp), hc, by unfold load; rw [hp, hb]; omega, fun _ h => hb ▸ h, hs,
    by unfold PollsSorted; rw [hl]; exact id⟩

theorem forall_setLine {s : State} {n : LineId} {l : LineEngine} {p q : LineEngine → Prop} (hl : p (s.line n) → q l)
    (hpq : ∀ l, p l → q l) (h : ∀ m, p (s.line m)) (m : LineId) : q ((s.setLine n l).line m) := by
  rw [setLine_line]
  split
  · exact hl (h n)
  · exact hpq _ (h m)

theorem calm_setLine {s : State} {n : LineId} {l : LineEngine} (h : LineCalm (s.line n) l) : Calm s (s.setLine n l) := by
  intro m a
  refine ⟨?_, ?_, ?_, ?_, id⟩
  · rintro ⟨⟨hrx, htx, hq⟩, hm⟩
    refine ⟨⟨hrx, htx, forall_setLine (p := fun l => l.pass.length ≤ 8 ∧ l.control.length ≤ 4 ∧ load l ≤ 9) ?_
      (fun _ => id) hq⟩, ?_⟩
    · rintro ⟨h1, h2, h3⟩
      exact ⟨Nat.le_trans h.pass h1, Nat.le_trans h.control (by omega), Nat.le_trans h.load h3⟩
    · rw [setLine_line]
      split
      · next e => subst e; have := h.load; omega
      · exact hm
  · rintro ⟨h1, h2, h3, hb, hh⟩
    refine ⟨h1, h2, h3, ?_, hh⟩
    exact forall_setLine (p := fun l => ∀ f ∈ l.backlog, f.isNotice = false) (fun hn f hf => hn f (h.backlog f hf))
      (fun _ => id) hb
  · exact forall_setLine h.supply (fun _ => id)
  · exact forall_setLine (p := PollsSorted) h.polls (fun _ => id)

theorem calm_noteRise (s : State) (f : EventFlag) : Calm s (s.noteRise f) := by
  unfold State.noteRise
  split
  · exact .refl s
  split
  · exact .refl s
  split
  · exact .refl s
  next hpending =>
    split
    · next hqueued =>
      refine fun n a => ⟨id, ?_, id, id, id⟩
      rintro ⟨h1, h2, h3, hb, hh⟩
      refine ⟨h1, h2, fun _ => ?_, hb, hh⟩
      have : 0 < noticesQueued s := List.countP_pos_iff.mpr (List.any_eq_true.mp hqueued)
      exact Nat.le_antisymm h1 this
    · next hqueued =>
      refine fun n a => ⟨id, ?_, id, id, id⟩
      rintro ⟨h1, h2, h3, hb, hh⟩
      refine ⟨h1, fun _ => ?_, h3, hb, hh⟩
      exact List.countP_eq_zero.mpr fun g hg hn => hqueued (List.any_eq_true.mpr ⟨g, hg, hn⟩)

theorem calm_raise (s : State) (f : EventFlag) : Calm s (s.raise f) := by
  unfold State.raise
  split
  · exact .refl s
  · exact Calm.trans (t := { s with flags := s.flags ||| f.mask }) (calm_of_eq rfl rfl rfl rfl rfl rfl rfl)
      (calm_noteRise _ f)

/-- Another capture in its law. -/
theorem calm_setCapture {s : State} (c : Capture)
    (h : CaptureLaw s → CaptureLaw { s with capture := c }) : Calm s { s with capture := c } :=
  fun _ _ => ⟨id, id, id, id, h⟩

/-! ### The Capture Unit -/

theorem calm_captureOffer (s : State) (o : CaptureOrigin) (r : ReqName) (a : Argument) (i : EntryId) (n : LineId)
    (node : Nat) : Calm s (s.captureOffer o r a i n node) := by
  unfold State.captureOffer
  split
  · refine calm_setCapture _ ?_
    rintro ⟨ht, -, -⟩
    exact ⟨ht, by simp [CaptureState.record, CaptureRecord.nodeBytes], by simp⟩
  · exact .refl s

/-- What a capture may record: a node answer of at most 8 bytes (section 12.5), or no node answer. -/
def AnswerFits (a : CaptureAnswer) : Prop := ∀ f, a = .node f → f.length ≤ 8

@[simp] theorem answerFits_outcome (c : LampCode) : AnswerFits (.outcome c) := fun _ h => nomatch h

@[simp] theorem answerFits_withdrawn : AnswerFits .withdrawn := fun _ h => nomatch h

theorem calm_captureHold (s : State) (i : EntryId) : Calm s (s.captureHold i) := by
  unfold State.captureHold
  split
  · exact calm_setEntry s i _
  · exact .refl s

theorem captureLaw_completed {s : State} {a : CaptureAnswer} (ha : AnswerFits a) (h : CaptureLaw s) :
    CaptureLaw { s with capture := { s.capture with state := s.capture.state.completed a } } := by
  obtain ⟨ht, hr, hs⟩ := h
  unfold CaptureLaw
  cases hstate : s.capture.state with
  | idle r => rw [hstate] at hr; exact ⟨ht, hr, trivial⟩
  | watching => exact ⟨ht, by simp [CaptureState.completed, CaptureState.record], trivial⟩
  | opened r k =>
    refine ⟨ht, ?_, trivial⟩
    simp only [CaptureState.completed, CaptureState.record, Option.mem_some_iff, CaptureRecord.nodeBytes]
    rintro _ rfl
    cases a with
    | node f => exact ha f rfl
    | outcome _ => exact Nat.zero_le _
    | withdrawn => exact Nat.zero_le _

theorem calm_captureEnd (s : State) (m : Option Nat) (i : EntryId) {a : CaptureAnswer} (ha : AnswerFits a) :
    Calm s (s.captureEnd m i a) := by
  unfold State.captureEnd
  split
  · exact ((calm_setCapture _ (captureLaw_completed ha)).trans (calm_raise _ _)).trans (calm_captureHold _ i)
  · exact .refl s

theorem calm_captureEndAll (s : State) (l : List (Option Nat × EntryId)) {a : CaptureAnswer} (ha : AnswerFits a) :
    Calm s (s.captureEndAll l a) :=
  foldl_walk Calm.refl Calm.trans (fun t (r : Option Nat × EntryId) => calm_captureEnd t r.1 r.2 ha) l s

/-! ### The clients -/

theorem calm_joinControl (s : State) (n : LineId) (k : ControlKind) (i : EntryId) (node : Nat)
    (h : (s.line n).control.length < 4) : Calm s (s.joinControl n k i node) := by
  unfold State.joinControl
  refine (calm_captureOffer s _ _ _ _ _ _).trans (calm_setLine ?_)
  refine lineCalm_of_eq rfl ?_ rfl rfl Nat.le.refl id
  simp only [line_congr (captureOffer_lines s _ _ _ _ _ _), List.length_append, List.length_singleton]
  omega

theorem insertPoll_sorted {p : PollRequest} {l : List PollRequest} (hl : l.Pairwise fun a b => a.entry.val < b.entry.val)
    (hp : ∀ q ∈ l, q.entry ≠ p.entry) : (insertPoll p l).Pairwise (fun a b => a.entry.val < b.entry.val) ∧
      ∀ q ∈ insertPoll p l, q = p ∨ q ∈ l := by
  induction l with
  | nil => simp [insertPoll]
  | cons q rest ih =>
    obtain ⟨hq, hrest⟩ := List.pairwise_cons.mp hl
    have hne : q.entry.val ≠ p.entry.val := fun e => hp q (by simp) (Fin.ext e)
    unfold insertPoll
    split
    · next hle =>
      have hlt : p.entry.val < q.entry.val := by omega
      refine ⟨List.pairwise_cons.mpr ⟨fun r hr => ?_, hl⟩, by simp⟩
      rcases List.mem_cons.mp hr with rfl | hr
      · exact hlt
      · exact Nat.lt_trans hlt (hq r hr)
    · obtain ⟨ihs, ihm⟩ := ih hrest fun r hr => hp r (by simp [hr])
      refine ⟨List.pairwise_cons.mpr ⟨fun r hr => ?_, ihs⟩, fun r hr => ?_⟩
      · rcases ihm r hr with rfl | hr
        · omega
        · exact hq r hr
      · rcases List.mem_cons.mp hr with rfl | hr
        · simp
        · rcases ihm r hr with h | h <;> simp [h]

theorem calm_joinPoll (s : State) (i : EntryId) : Calm s (s.joinPoll i) := by
  unfold State.joinPoll
  dsimp only
  split
  · exact .refl s
  · next hnone =>
    have hline := line_congr (captureOffer_lines s .bridge .probe probeArg i (s.entry i).line (s.entry i).node)
    refine (calm_captureOffer s _ _ _ _ _ _).trans
      (calm_setLine ⟨Nat.le.refl, Nat.le_max_left _ _, Nat.le.refl, fun _ h => h, id, ?_⟩)
    refine fun h => (insertPoll_sorted h fun q hq hqi => hnone ?_).1
    rw [hline] at hq
    exact List.any_eq_true.mpr ⟨q, hq, by simpa using hqi⟩

theorem calm_withdrawPoll (s : State) (i : EntryId) : Calm s (s.withdrawPoll i) :=
  Calm.trans (t := s.setLine (s.entry i).line { s.line (s.entry i).line with
      polls := (s.line (s.entry i).line).polls.filter fun p => p.entry != i })
    (calm_setLine ⟨Nat.le.refl, Nat.le_max_left _ _, Nat.le.refl, fun _ h => h, id, fun h => List.Pairwise.filter _ h⟩)
    (calm_captureEndAll _ _ answerFits_withdrawn)

theorem calm_removeControl (s : State) (n : LineId) (p : ControlRequest → Bool) {a : CaptureAnswer} (ha : AnswerFits a) :
    Calm s (s.removeControl n p a) := by
  refine Calm.trans (t := s.setLine n { s.line n with control := (s.line n).control.filter fun c => !p c })
    (calm_setLine (lineCalm_of_eq rfl ?_ rfl rfl Nat.le.refl id)) (calm_captureEndAll _ _ ha)
  exact Nat.le_trans (List.length_filter_le _ _) (Nat.le_max_left _ _)

/-! ### The arbiter -/

theorem calm_markStartSent (s : State) (i : EntryId) (r : ReqName) : Calm s (s.markStartSent i r) := by
  unfold State.markStartSent
  split
  · exact calm_setEntryState s i _
  · exact .refl s

/-- A line that is not DOWN is supplied, so it may go to any state but DOWN. -/
theorem supplyOk_of_up {l l' : LineEngine} (hup : l.engine.isDown = false) (hd : l'.engine.isDown = false)
    (hon : l'.supplyOn = l.supplyOn) (ht : l'.retryTimer = l.retryTimer) (h : supplyOk l) : supplyOk l' := by
  obtain ⟨h1, h2, h3, -⟩ := h
  have hs : l.supplyOn = true := by
    refine Classical.byContradiction fun hn => ?_
    have := (h1 (by simpa using hn)).1
    rw [hup] at this; cases this
  refine ⟨fun hoff => ?_, ?_, ?_, fun hdown => ?_⟩
  · rw [hon, hs] at hoff; cases hoff
  · rw [hon, ht]; exact h2
  · rw [ht]; exact h3
  · rw [hd] at hdown; cases hdown

theorem passInFlight_of_idle {l : LineEngine} (h : l.engine = .idle) : passInFlight l = 0 := by
  simp [passInFlight, h, Engine.exchange]

theorem calm_beginExchange {s : State} {n : LineId} {l : LineEngine} (c : Client) (w : Work) (node : Nat)
    (h : LineCalm (s.line n) { l with
      engine := .sending { work := w, node := node,
                           bytes := lineRequestBytes node (l.exchangeNumber + 1) w.name w.arg,
                           allowed := l.settings.attempts, made := 1, badSeen := false }
      exchangeNumber := l.exchangeNumber + 1, pointer := c }) :
    Calm s ((s.setLine n l).beginExchange n c w node) := by
  unfold State.beginExchange
  dsimp only
  rw [setLine_line_self, setLine_setLine]
  exact (calm_setLine h).trans (calm_markStartSent _ _ _)

/-- A grant takes a request out of its client's list; a head-end request goes from the queue into flight. -/
theorem calm_grantTo (s : State) (n : LineId) (c : Client) (hidle : (s.line n).engine = .idle) :
    Calm s (s.grantTo n c) := by
  have hfree := passInFlight_of_idle hidle
  have hup : (s.line n).engine.isDown = false := by rw [hidle]; rfl
  unfold State.grantTo
  dsimp only
  split
  · split
    · next r rest hpass =>
      refine calm_beginExchange _ _ _ ⟨?_, Nat.le_max_left _ _, ?_, fun _ h => h, ?_, id⟩
      · simp [hpass]
      · simp only [load, passInFlight, Engine.exchange, hpass, hidle, List.length_cons]
        omega
      · exact supplyOk_of_up hup rfl rfl rfl
    · exact .refl s
  · split
    · next r rest hcontrol =>
      refine calm_beginExchange _ _ _ ⟨Nat.le.refl, ?_, ?_, fun _ h => h, ?_, id⟩
      · simp only [hcontrol, List.length_cons]
        omega
      · simp [load, passInFlight, Engine.exchange]
      · exact supplyOk_of_up hup rfl rfl rfl
    · exact .refl s
  · split
    · next r rest hpolls =>
      refine calm_beginExchange _ _ _ ⟨Nat.le.refl, Nat.le_max_left _ _, ?_, fun _ h => h, ?_, ?_⟩
      · simp [load, passInFlight, Engine.exchange]
      · exact supplyOk_of_up hup rfl rfl rfl
      · unfold PollsSorted; rw [hpolls]; exact fun h => (List.pairwise_cons.mp h).2
    · exact .refl s

theorem calm_lineWork : LineWork Calm where
  refl := Calm.refl
  trans := Calm.trans
  joinControl := calm_joinControl
  grantTo := calm_grantTo

theorem calm_settleLine (s : State) (n : LineId) : Calm s (s.settleLine n) := calm_lineWork.settleLine s n

theorem calm_testWork : TestWork Calm where
  refl := Calm.refl
  trans := Calm.trans
  setEntry := calm_setEntry
  raise := calm_raise
  joinPoll := calm_joinPoll
  withdrawPoll := calm_withdrawPoll
  removeControl := fun s n p => calm_removeControl s n p answerFits_withdrawn

end Sys2Proof.LineOrder
end

section
/-! The ends of exchanges, the supply, the resets, the Lamp Path and the Trunk Port keep the order of the lines. -/

namespace Sys2Proof.LineOrder

open Sys2Proof Sys2Proof.Machine Sys2Proof.Machine.Safety Sys2Proof.Laws Sys2Proof.Walks

/-! ### What the Monitor's work leaves of a line -/

/-- Lines change at most in their control queues and polls, the transmit queue not at all: what the Test Monitor and the
Capture Unit can do to them. -/
structure SideWork (s t : State) : Prop where
  lines : ∀ n, ∃ control polls, t.line n = { s.line n with control := control, polls := polls }
  tx    : t.tx = s.tx

theorem SideWork.refl (s : State) : SideWork s s := ⟨fun _ => ⟨_, _, rfl⟩, rfl⟩

theorem SideWork.trans {s t u : State} (h : SideWork s t) (k : SideWork t u) : SideWork s u := by
  refine ⟨fun n => ?_, k.tx.trans h.tx⟩
  obtain ⟨c, p, ht⟩ := h.lines n
  obtain ⟨c', p', hu⟩ := k.lines n
  exact ⟨c', p', by rw [hu, ht]⟩

theorem sideWork_of_eq {s t : State} (hl : t.lines = s.lines) (ht : t.tx = s.tx) : SideWork s t :=
  ⟨fun n => ⟨(s.line n).control, (s.line n).polls, by rw [line_congr hl]⟩, ht⟩

theorem sideWork_setLine (s : State) (n : LineId) (c : List ControlRequest) (p : List PollRequest) :
    SideWork s (s.setLine n { s.line n with control := c, polls := p }) := by
  refine ⟨fun m => ?_, rfl⟩
  rw [setLine_line]
  split
  · next e => exact ⟨c, p, by rw [e]⟩
  · exact ⟨_, _, rfl⟩

theorem sideWork_captureEnd (s : State) (m : Option Nat) (i : EntryId) (a : CaptureAnswer) :
    SideWork s (s.captureEnd m i a) := sideWork_of_eq (captureEnd_lines s m i a) (captureEnd_tx s m i a)

theorem sideWork_captureEndAll (s : State) (l : List (Option Nat × EntryId)) (a : CaptureAnswer) :
    SideWork s (s.captureEndAll l a) := sideWork_of_eq (captureEndAll_lines s l a) (captureEndAll_tx s l a)

theorem sideWork_joinControl (s : State) (n : LineId) (k : ControlKind) (i : EntryId) (node : Nat) :
    SideWork s (s.joinControl n k i node) :=
  (sideWork_of_eq (captureOffer_lines s _ _ _ _ _ _) (captureOffer_tx s _ _ _ _ _ _)).trans
    (sideWork_setLine _ n _ (State.line _ n).polls)

theorem sideWork_joinPoll (s : State) (i : EntryId) : SideWork s (s.joinPoll i) := by
  unfold State.joinPoll
  dsimp only
  split
  · exact .refl s
  · exact (sideWork_of_eq (captureOffer_lines s _ _ _ _ _ _) (captureOffer_tx s _ _ _ _ _ _)).trans
      (sideWork_setLine _ _ (State.line _ _).control _)

theorem sideWork_removeControl (s : State) (n : LineId) (p : ControlRequest → Bool) (a : CaptureAnswer) :
    SideWork s (s.removeControl n p a) :=
  (sideWork_setLine s n ((s.line n).control.filter fun c => !p c) (s.line n).polls).trans (sideWork_captureEndAll _ _ _)

theorem sideWork_testWork : TestWork SideWork where
  refl := SideWork.refl
  trans := SideWork.trans
  setEntry := fun _ _ _ => sideWork_of_eq rfl rfl
  raise := fun s f => sideWork_of_eq (raise_lines s f) (raise_tx s f)
  joinPoll := sideWork_joinPoll
  withdrawPoll := fun s i => (sideWork_setLine s (s.entry i).line (s.line (s.entry i).line).control
    ((s.line (s.entry i).line).polls.filter fun p => p.entry != i)).trans (sideWork_captureEndAll _ _ _)
  removeControl := fun s n p => sideWork_removeControl s n p _

/-- The pass-through queue, the backlog and the engine of a line are none of the Monitor's business. -/
theorem SideWork.kept {s t : State} (h : SideWork s t) (n : LineId) : (t.line n).pass = (s.line n).pass ∧
    (t.line n).backlog = (s.line n).backlog ∧ (t.line n).engine = (s.line n).engine ∧
    (t.line n).exchangeNumber = (s.line n).exchangeNumber := by
  obtain ⟨c, p, e⟩ := h.lines n
  rw [e]
  exact ⟨rfl, rfl, rfl, rfl⟩

/-! ### Work that adds answers or requests to one line -/

/-- `l'` is `l` after work that needs room for `a` answers and leaves room for `b`; what it puts into the backlog is no
NOTICE. -/
structure LineStep (a b : Nat) (l l' : LineEngine) : Prop where
  pass    : l'.pass.length ≤ max l.pass.length 8
  control : l'.control.length ≤ max l.control.length 4
  load    : load l + a ≤ 9 → load l' + b ≤ 9
  backlog : ∀ f ∈ l'.backlog, f ∈ l.backlog ∨ f.isNotice = false
  supply  : supplyOk l → supplyOk l'
  polls   : PollsSorted l → PollsSorted l'

theorem orderly_setLine {s : State} {n : LineId} {a b : Nat} {l : LineEngine} (h : LineStep a b (s.line n) l) :
    Orderly n a b s (s.setLine n l) := by
  refine ⟨?_, ?_, forall_setLine h.supply (fun _ => id), forall_setLine (p := PollsSorted) h.polls (fun _ => id), id⟩
  · rintro ⟨⟨hrx, htx, hq⟩, hm⟩
    have hload := h.load hm
    refine ⟨⟨hrx, htx, forall_setLine (p := fun l => l.pass.length ≤ 8 ∧ l.control.length ≤ 4 ∧ load l ≤ 9) ?_
      (fun _ => id) hq⟩, by rw [setLine_line_self]; exact hload⟩
    rintro ⟨h1, h2, -⟩
    exact ⟨Nat.le_trans h.pass (Nat.max_le.mpr ⟨h1, Nat.le.refl⟩),
      Nat.le_trans h.control (Nat.max_le.mpr ⟨h2, Nat.le.refl⟩), by omega⟩
  · rintro ⟨h1, h2, h3, hb, hh⟩
    exact ⟨h1, h2, h3, forall_setLine (p := fun l => ∀ f ∈ l.backlog, f.isNotice = false)
      (fun hn f hf => (h.backlog f hf).elim (hn f) id) (fun _ => id) hb, hh⟩

theorem orderly_joinBacklog (s : State) (n : LineId) (a : Nat) {f : Frame} (hf : f.isNotice = false) :
    Orderly n (a + 1) a s (s.joinBacklog n f) := by
  refine orderly_setLine ⟨Nat.le_max_left _ _, Nat.le_max_left _ _, ?_, ?_, id, id⟩
  · simp only [load, passInFlight, List.length_append, List.length_singleton]
    omega
  · simp only [List.mem_append, List.mem_singleton]
    rintro g (hg | rfl)
    · exact .inl hg
    · exact .inr hf

/-- A fold of steps each of which uses the room of one answer. -/
theorem orderly_foldl {α : Type} {n : LineId} {f : State → α → State} (h : ∀ a s x, Orderly n (a + 1) a s (f s x))
    (l : List α) (s : State) : Orderly n l.length 0 s (l.foldl f s) := by
  induction l generalizing s with
  | nil => exact .refl n 0 s
  | cons x l ih => exact (h l.length s x).trans (ih _)

/-- A frame that is no NOTICE takes a free transmit place. -/
theorem calm_pushTx {s : State} {f : Frame} (hf : f.isNotice = false) (hroom : s.tx.length < 16) :
    Calm s (s.pushTx f) := by
  have hn : noticesQueued (s.pushTx f) = noticesQueued s := by
    simp [noticesQueued, State.pushTx, List.countP_append, hf]
  refine fun n a => ⟨?_, ?_, id, id, id⟩
  · rintro ⟨⟨hrx, -, hq⟩, hm⟩
    refine ⟨⟨hrx, ?_, hq⟩, hm⟩
    rw [pushTx_tx, List.length_append, List.length_singleton]
    omega
  · rintro ⟨h1, h2, h3, hb, hh⟩
    exact ⟨hn ▸ h1, hn ▸ h2, hn ▸ h3, hb, hh⟩

theorem txFull_false {s : State} : s.txFull = false ↔ s.tx.length < 16 := by
  simp [State.txFull]

theorem calm_setEngine {s : State} {n : LineId} {g : Engine} (hup : (s.line n).engine.isDown = false)
    (hg : g.isDown = false) (hx : g.exchange = none) : Calm s (s.setEngine n g) := by
  refine calm_setLine (lineCalm_of_eq rfl (Nat.le_max_left _ _) rfl rfl ?_ (supplyOk_of_up hup hg rfl rfl))
  simp [passInFlight, hx]

/-- The answer of a head-end request goes out at once or into the backlog (R140). -/
theorem orderly_passAnswerOut {s : State} {n : LineId} {f : Frame} (hf : f.isNotice = false)
    (hup : (s.line n).engine.isDown = false) : Orderly n 1 0 s (s.passAnswerOut n f) := by
  unfold State.passAnswerOut
  split
  · next h =>
    have hroom : s.tx.length < 16 := by
      rw [← txFull_false]
      simpa using (Bool.and_eq_true_iff.mp h).2
    exact ((calm_pushTx hf hroom).trans (calm_setEngine (s := s.pushTx f) hup rfl rfl) n 0).of_more (Nat.zero_le 1)
  · refine (orderly_joinBacklog s n 0 hf).trans (calm_setEngine ?_ rfl rfl n 0)
    rw [joinBacklog_line_self]
    exact hup

/-! ### The end of an exchange -/

/-- Whether work is a head-end request: 1 or 0. -/
def passWork : Work → Nat
  | .passThrough _ => 1
  | .control _ => 0
  | .poll _ => 0

theorem passInFlight_of_exchange {l : LineEngine} {x : Exchange} (h : l.engine.exchange = some x) :
    passInFlight l = passWork x.work := by
  unfold passInFlight
  rw [h]
  cases x with
  | mk work node bytes allowed made badSeen => cases work <;> rfl

theorem isDown_of_exchange {g : Engine} {x : Exchange} (h : g.exchange = some x) : g.isDown = false := by
  cases g with
  | down => cases h
  | _ => rfl

theorem passAnswer_isNotice (s : State) (r : PassRequest) (c : LampCode) (f : List Byte) :
    (s.passAnswer r c f).isNotice = false := rfl

/-- The client of an ended exchange needs room for its answer when it is the Lamp Path. -/
theorem orderly_clientEnd {s : State} {n : LineId} (w : Work) (e : ExchangeEnd)
    (hup : e = .lineDown ∨ (s.line n).engine.isDown = false) : Orderly n (passWork w) 0 s (s.clientEnd n w e) := by
  have hstop (r : ControlRequest) : Orderly n 0 0 s
      (if (s.line n).control.length < 4 then s.joinControl n .stopTest r.entry r.node else s) := by
    split
    · next h => exact calm_joinControl s n _ _ _ h n 0
    · exact .refl n 0 s
  unfold State.clientEnd
  split
  · next r =>
    have htouch := sideWork_testWork.touch s n r e
    refine Orderly.trans (calm_testWork.touch s n r e n 1) ?_
    have hout (hu : (s.line n).engine.isDown = false) :
        Orderly n 1 0 (s.touch n r e)
          ((s.touch n r e).passAnswerOut n ((s.touch n r e).passAnswer r e.lampCode e.fields)) :=
      orderly_passAnswerOut rfl (by rw [(htouch.kept n).2.2.1]; exact hu)
    split
    · exact orderly_joinBacklog _ n 0 rfl
    · next hne => exact hout (hup.resolve_left hne)
  · next r =>
    split
    · exact hstop r
    · exact hstop r
    · exact .refl n 0 s
  · exact .refl n 0 s

/-- The end fits a capture record: the fields of a taken answer are at most 8 bytes. -/
def EndFits (e : ExchangeEnd) : Prop := AnswerFits e.captureAnswer

theorem endFits_of_unanswered {e : ExchangeEnd} (h : ∀ a f, e ≠ .answered a f) : EndFits e := by
  cases e with
  | answered a f => exact absurd rfl (h a f)
  | _ => exact answerFits_outcome _

theorem orderly_handEnd {s : State} {n : LineId} (x : Exchange) {e : ExchangeEnd} (he : EndFits e)
    (hup : e = .lineDown ∨ (s.line n).engine.isDown = false) :
    Orderly n (passWork x.work) 0 s (s.handEnd n x e) := by
  unfold State.handEnd
  have h1 := calm_testWork.monitorEnd s n x.node x.work.name x.work.isPoll e
  have k1 := sideWork_testWork.monitorEnd s n x.node x.work.name x.work.isPoll e
  have h2 := calm_captureEnd (s.monitorEnd n x.node x.work.name x.work.isPoll e) x.work.mark x.work.entry he
  have k2 := k1.trans (sideWork_captureEnd _ x.work.mark x.work.entry e.captureAnswer)
  refine ((h1.trans h2) n _).trans (orderly_clientEnd x.work e (hup.imp_right fun hu => ?_))
  rw [(k2.kept n).2.2.1]
  exact hu

/-- An engine that leaves its exchange frees the place of a head-end request. -/
theorem orderly_leave {s : State} {n : LineId} {x : Exchange} {g : Engine}
    (hx : (s.line n).engine.exchange = some x) (hg : g.isDown = false) (hn : g.exchange = none) :
    Orderly n 0 (passWork x.work) s (s.setEngine n g) := by
  refine orderly_setLine ⟨Nat.le_max_left _ _, Nat.le_max_left _ _, ?_, fun _ h => .inl h,
    supplyOk_of_up (isDown_of_exchange hx) hg rfl rfl, id⟩
  rw [← passInFlight_of_exchange hx]
  simp only [load]
  have hnone : passInFlight { s.line n with engine := g } = 0 := by simp [passInFlight, hn]
  rw [hnone]
  omega

theorem orderly_endExchange {s : State} {n : LineId} {x : Exchange} {e : ExchangeEnd} (he : EndFits e)
    (hx : (s.line n).engine.exchange = some x) : Orderly n 0 0 s (s.endExchange n x e) :=
  (orderly_leave hx rfl rfl).trans (orderly_handEnd x he (.inr (by rw [setEngine_line_self]; rfl)))

theorem orderly_attemptEnd {s : State} {n : LineId} {x : Exchange} (bad : Bool)
    (hx : (s.line n).engine.exchange = some x) : Orderly n 0 0 s (s.attemptEnd n x bad) := by
  unfold State.attemptEnd
  dsimp only
  split
  · have hcalm : LineCalm (s.line n)
        { s.line n with engine := .sending { x with badSeen := x.badSeen || bad, made := x.made + 1 } } := by
      refine lineCalm_of_eq rfl (Nat.le_max_left _ _) rfl rfl ?_ (supplyOk_of_up (isDown_of_exchange hx) rfl rfl rfl)
      rw [passInFlight_of_exchange hx]
      exact Nat.le_of_eq (passInFlight_of_exchange
        (x := { x with badSeen := x.badSeen || bad, made := x.made + 1 }) rfl)
    exact calm_setLine hcalm n 0
  · have hfits : EndFits (if (x.badSeen || bad) = true then ExchangeEnd.badAnswer else .noAnswer) := by
      split <;> exact answerFits_outcome _
    refine Orderly.trans (orderly_leave hx rfl rfl) (orderly_handEnd (x := { x with badSeen := x.badSeen || bad }) hfits ?_)
    exact .inr (by rw [setEngine_line_self]; rfl)

/-! ### The course of an exchange -/

theorem answerLength_le {k len : Nat} (h : answerLength k = some len) : len ≤ 11 := by
  unfold answerLength at h
  split at h <;> simp_all <;> omega

theorem answerLength_form (name : ReqName) : (answerLength name.form).isSome = true := by cases name <;> rfl

/-- A taken answer has at most 8 bytes from its form byte to its last field (section 12.5). -/
theorem checkAnswer_taken_length {node : Nat} {number : Byte} {name : ReqName} {heard f : List Byte} {a : NodeAnswer}
    (h : checkAnswer node number name heard = .taken a f) : f.length ≤ 8 := by
  have hform : decodeAnswer name f = some a ∧ f = ((closeAnswer heard).take ((closeAnswer heard).length - 1)).drop 2 ∧
      4 ≤ (closeAnswer heard).length := by
    unfold checkAnswer at h
    dsimp only at h
    split at h
    · cases h
    split at h
    · cases h
    next hlen =>
      split at h
      · cases h
      split at h
      · cases h
      split at h
      · cases h
      split at h
      · next hd => cases h; exact ⟨hd, rfl, by omega⟩
      · cases h
  obtain ⟨hdecode, rfl, hlen⟩ := hform
  have hclose : (closeAnswer heard).length ≤ 11 := by
    cases hk : answerLength (byteAt heard 2).toNat with
    | some len =>
      have : (closeAnswer heard).length ≤ len := by
        rw [closeAnswer, hk]
        exact List.length_take_le _ _
      exact Nat.le_trans this (answerLength_le hk)
    | none =>
      exfalso
      have hc : closeAnswer heard = heard := by simp [closeAnswer, hk]
      have hbyte : byteAt ((heard.take (heard.length - 1)).drop 2) 0 = byteAt heard 2 := by
        rw [hc] at hlen
        simp only [byteAt, List.getD_eq_getElem?_getD, List.getElem?_drop, List.getElem?_take]
        rw [if_pos (by omega)]
      have hname : (byteAt heard 2).toNat = name.form := by
        unfold decodeAnswer at hdecode
        rw [hc, hbyte] at hdecode
        split at hdecode
        · cases hdecode
        · next h => exact Classical.not_not.mp h
      have := answerLength_form name
      rw [← hname, hk] at this
      cases this
  simp only [List.length_drop, List.length_take]
  omega

theorem orderly_answerHeard (s : State) (n : LineId) (heard : List Byte) :
    Orderly n 0 0 s (s.answerHeard n heard) := by
  unfold State.answerHeard
  split
  · next x w hx =>
    have hex : (s.line n).engine.exchange = some x := by rw [hx]; rfl
    split
    · exact .refl n 0 s
    · exact .refl n 0 s
    · exact (orderly_attemptEnd true hex).trans (calm_settleLine _ n n 0)
    · next a f hc =>
      refine (orderly_endExchange ?_ hex).trans (calm_settleLine _ n n 0)
      intro g hg
      cases hg
      exact checkAnswer_taken_length hc
  · exact .refl n 0 s

theorem orderly_windowClose (s : State) (n : LineId) (cut : Bool) : Orderly n 0 0 s (s.windowClose n cut) := by
  unfold State.windowClose
  split
  · next x w hx =>
    exact (orderly_attemptEnd cut (by rw [hx]; rfl)).trans (calm_settleLine _ n n 0)
  · exact .refl n 0 s

theorem calm_requestSent (s : State) (n : LineId) : Calm s (s.requestSent n) := by
  unfold State.requestSent
  split
  · next x hx =>
    have hex : (s.line n).engine.exchange = some x := by rw [hx]; rfl
    refine calm_setLine (lineCalm_of_eq rfl (Nat.le_max_left _ _) rfl rfl ?_
      (supplyOk_of_up (isDown_of_exchange hex) rfl rfl rfl))
    rw [passInFlight_of_exchange hex]
    exact Nat.le_of_eq (passInFlight_of_exchange rfl)
  · exact .refl s

theorem calm_gapEnd (s : State) (n : LineId) : Calm s (s.gapEnd n) := by
  unfold State.gapEnd
  split
  · next h =>
    refine (calm_setEngine ?_ rfl rfl).trans (calm_settleLine _ n)
    cases he : (s.line n).engine with
    | gap => rfl
    | _ => rw [he] at h; cases h
  · exact .refl s

theorem orderly_abortLine (s : State) (n : LineId) : Orderly n 0 0 s (s.abortLine n) := by
  unfold State.abortLine
  split
  · next x hx => exact (orderly_endExchange (endFits_of_unanswered (by simp)) hx).trans (calm_settleLine _ n n 0)
  · exact .refl n 0 s

/-! ### The supply -/

theorem orderly_dropPassDown (n : LineId) (a : Nat) (s : State) (r : PassRequest) :
    Orderly n (a + 1) a s (s.dropPassDown n r) := by
  unfold State.dropPassDown
  have h := orderly_joinBacklog s n a (passAnswer_isNotice s r .lineDown [])
  dsimp only
  split
  · exact (h.trans (calm_testWork.takeBackUnsent _ _ _ n a)).trans
      (calm_captureEnd _ _ _ (answerFits_outcome _) n a)
  · exact h.trans (calm_captureEnd _ _ _ (answerFits_outcome _) n a)

theorem calm_dropStartDown (s : State) (c : ControlRequest) : Calm s (s.dropStartDown c) :=
  (calm_testWork.takeBackUnsent s _ _).trans (calm_captureEnd _ _ _ (answerFits_outcome _))

/-- The pass-through queue emptied: each request that waited leaves room for its answer. -/
theorem orderly_emptyPass (s : State) (n : LineId) :
    Orderly n 0 (s.line n).pass.length s (s.setLine n { s.line n with pass := [] }) := by
  refine orderly_setLine ⟨Nat.zero_le _, Nat.le_max_left _ _, ?_, fun _ h => .inl h, id, id⟩
  simp only [load, passInFlight, List.length_nil]
  omega

theorem calm_filterControl (s : State) (n : LineId) (p : ControlRequest → Bool) :
    Calm s (s.setLine n { s.line n with control := (s.line n).control.filter p }) :=
  calm_setLine (lineCalm_of_eq rfl
    (Nat.le_trans (List.length_filter_le _ _) (Nat.le_max_left _ _)) rfl rfl Nat.le.refl id)

/-- The supply goes off and the engine DOWN: the exchange in flight leaves the room of its answer. -/
theorem orderly_supplyOff (s : State) (n : LineId) : Orderly n 0 (passInFlight (s.line n)) s
    (s.setLine n { s.line n with engine := .down, supplyOn := false, retryTimer := some 10, senseDue := false }) := by
  refine orderly_setLine ⟨Nat.le_max_left _ _, Nat.le_max_left _ _, ?_, fun _ h => .inl h, fun _ => ?_, id⟩
  · simp only [load, passInFlight, Engine.exchange]
    omega
  · simp [supplyOk, Engine.isDown]

theorem orderly_supplyFault (s : State) (n : LineId) : Orderly n 0 0 s (s.supplyFault n) := by
  unfold State.supplyFault
  dsimp only
  split
  · exact .refl n 0 s
  refine Orderly.trans ?_ (calm_settleLine _ n n 0)
  refine Orderly.trans ?_ ((calm_filterControl _ n _).trans (foldl_walk Calm.refl Calm.trans calm_dropStartDown _ _) n 0)
  refine Orderly.trans ?_ ((orderly_emptyPass _ n).trans (orderly_foldl (orderly_dropPassDown n) _ _))
  have hoff := (orderly_supplyOff s n).trans (calm_raise _ .lineFault n _)
  split
  · next x hx =>
    rw [passInFlight_of_exchange hx] at hoff
    exact hoff.trans (orderly_handEnd x (answerFits_outcome _) (.inl rfl))
  · exact hoff.trans (Orderly.of_more (.refl n 0 _) (Nat.zero_le _))

theorem calm_supplyRetry (s : State) (n : LineId) : Calm s (s.supplyRetry n) := by
  unfold State.supplyRetry
  dsimp only
  split
  · refine calm_setLine (lineCalm_of_eq rfl (Nat.le_max_left _ _) rfl rfl Nat.le.refl fun _ => ?_)
    simp [supplyOk]
  · exact .refl s

theorem orderly_senseRead (s : State) (n : LineId) (limit : Bool) : Orderly n 0 0 s (s.senseRead n limit) := by
  unfold State.senseRead
  dsimp only
  split
  · exact .refl n 0 s
  next hdue =>
    -- a line whose sense is due has its supply on
    have hon (h : supplyOk (s.line n)) : (s.line n).supplyOn = true ∧ (s.line n).retryTimer = none := by
      obtain ⟨h1, h2, -, -⟩ := h
      cases hs : (s.line n).supplyOn with
      | true => exact ⟨rfl, by rw [hs] at h2; simpa using h2⟩
      | false => exact absurd (h1 hs).2 hdue
    split
    · next hdown =>
      split
      · have hcalm : LineCalm (s.line n)
            { s.line n with supplyOn := false, retryTimer := some 10, senseDue := false } :=
          lineCalm_of_eq rfl (Nat.le_max_left _ _) rfl rfl Nat.le.refl fun _ => by simp [supplyOk, hdown]
        exact calm_setLine hcalm n 0
      · have hcalm : LineCalm (s.line n) { s.line n with engine := .idle, senseDue := false } := by
          refine lineCalm_of_eq rfl (Nat.le_max_left _ _) rfl rfl (Nat.zero_le _) fun h => ?_
          obtain ⟨h1, h2⟩ := hon h
          simp [supplyOk, h1, h2, Engine.isDown]
        exact (calm_setLine hcalm).trans (calm_settleLine _ n) n 0
    · next hdown =>
      have hread : Calm s (s.setLine n { s.line n with senseDue := false }) := by
        refine calm_setLine (lineCalm_of_eq rfl (Nat.le_max_left _ _) rfl rfl Nat.le.refl fun h => ?_)
        obtain ⟨h1, h2⟩ := hon h
        simp [supplyOk, h1, h2, hdown]
      split
      · exact (hread n 0).trans (orderly_supplyFault _ n)
      · exact hread n 0

theorem calm_retrySecond (n : LineId) (s : State) : Calm s (s.retrySecond n) := by
  unfold State.retrySecond
  split
  · next k hk =>
    split
    · exact calm_supplyRetry s n
    · refine calm_setLine (lineCalm_of_eq rfl (Nat.le_max_left _ _) rfl rfl Nat.le.refl ?_)
      rintro ⟨h1, h2, h3, h4⟩
      have := h3 k (by simp [hk])
      refine ⟨h1, by rw [h2, hk]; rfl, ?_, h4⟩
      simp only [Option.mem_some_iff]
      omega
  · exact .refl s

/-! ### The resets -/

theorem length_resetPass (l : LineEngine) : l.resetPass.length = passInFlight l + l.pass.length := by
  cases hx : l.engine.exchange with
  | none => simp only [LineEngine.resetPass, passInFlight, hx, Nat.zero_add]
  | some x =>
    obtain ⟨work, _, _, _, _, _⟩ := x
    cases work with
    | passThrough r => simp only [LineEngine.resetPass, passInFlight, hx, List.length_cons, Nat.add_comm]
    | control c => simp only [LineEngine.resetPass, passInFlight, hx, Nat.zero_add]
    | poll p => simp only [LineEngine.resetPass, passInFlight, hx, Nat.zero_add]

theorem supplyOk_reset (l : LineEngine) : supplyOk l.reset := by
  simp [supplyOk, LineEngine.reset, Engine.isDown]

theorem orderly_resetLine (s : State) (n : LineId) : Orderly n 0 0 s (s.resetLine n) := by
  unfold State.resetLine
  dsimp only
  refine Orderly.trans (b := (s.line n).resetPass.length) ?_ (Orderly.trans
    (orderly_foldl (fun a t r => orderly_joinBacklog t n a (passAnswer_isNotice t r .aborted [])) _ _)
    ((calm_captureEndAll _ _ (answerFits_outcome _)).trans (calm_testWork.resetLineEntries _ n) n 0))
  refine orderly_setLine ⟨Nat.zero_le _, Nat.zero_le _, ?_, fun _ h => .inl h, fun _ => supplyOk_reset _,
    fun _ => List.Pairwise.nil⟩
  rw [length_resetPass]
  simp only [load, LineEngine.reset, passInFlight, Engine.exchange, List.length_nil]
  omega

theorem calm_resetEngine (n : LineId) (s : State) : Calm s (s.resetEngine n) :=
  calm_setLine ⟨Nat.zero_le _, Nat.zero_le _, Nat.zero_le _, fun _ h => (nomatch h), fun _ => supplyOk_reset _,
    fun _ => List.Pairwise.nil⟩

end Sys2Proof.LineOrder
end

section
/-! What the work of tests and lines does to the entries: every entry keeps its ranges (R2, R10, R12, R16, R94), and none
comes under test (R11). One relation, `Tame`, and one lemma for each shared operation. -/

namespace Sys2Proof.EntryOrder

open Sys2Proof Sys2Proof.Machine Sys2Proof.Machine.Safety Sys2Proof.Laws Sys2Proof.Walks

/-! ### The relation -/

/-- `e'` lies in its ranges when `e` does, and is under test only when `e` is. -/
structure EntryTame (s : State) (e e' : Entry) : Prop where
  ranges : TablesInRange s → entryOk e → entryOk e'
  active : e'.state.underTest = true → e.state.underTest = true

theorem EntryTame.refl (s : State) (e : Entry) : EntryTame s e e := ⟨fun _ => id, id⟩

theorem EntryTame.trans {s : State} {e e' e'' : Entry} (h : EntryTame s e e') (k : EntryTame s e' e'') :
    EntryTame s e e'' := ⟨fun hs he => k.ranges hs (h.ranges hs he), h.active ∘ k.active⟩

/-- Work that changes entries tamely and nothing that `Kept` keeps. -/
structure Tame (s t : State) : Prop where
  kept  : Kept s t
  entry : ∀ i, EntryTame s (s.entry i) (t.entry i)

theorem tables_of_kept {s t : State} (k : Kept s t) (h : TablesInRange s) : TablesInRange t := by
  obtain ⟨hg, hl, hc, hs, hp⟩ := h
  refine ⟨fun g => ?_, fun n => ?_, ?_, ?_, ?_⟩
  · unfold State.group; rw [k.groups]; exact hg g
  · rw [k.lineSettings]; exact hl n
  · rw [k.criteria]; exact hc
  · rw [k.settings]; exact hs
  · rw [k.passTimer]; exact hp

theorem Tame.refl (s : State) : Tame s s := ⟨.refl s, fun _ => .refl s _⟩

theorem Tame.trans {s t u : State} (h : Tame s t) (k : Tame t u) : Tame s u :=
  ⟨h.kept.trans k.kept, fun i =>
    ⟨fun hs he => (k.entry i).ranges (tables_of_kept h.kept hs) ((h.entry i).ranges hs he),
      (h.entry i).active ∘ (k.entry i).active⟩⟩

theorem tame_forEntries {f : EntryId → State → State} (h : ∀ i s, Tame s (f i s)) (s : State) :
    Tame s (forEntries f s) := foldl_walk Tame.refl Tame.trans (fun t i => h i t) _ s

theorem tame_of_entries {s t : State} (k : Kept s t) (h : t.entries = s.entries) : Tame s t :=
  ⟨k, fun i => by rw [entry_congr h]; exact .refl s _⟩

/-! ### One entry -/

/-- A free entry is READY, so one in any other state is in use (R1). -/
theorem inUse_of_state {e : Entry} (h : entryOk e) (hs : e.state ≠ .ready) : e.inUse = true := by
  obtain ⟨-, -, -, -, hfree⟩ := h
  refine Classical.byContradiction fun hn => ?_
  rw [hfree (by simpa using hn)] at hs
  exact hs rfl

/-- An entry written in its other parts: in use or in some state but READY, its new state and attempts in range, and not
newly under test. -/
theorem entryTame_of {s : State} {e e' : Entry} (hid : SameIdentity e e') (hfrom : e.inUse = true ∨ e.state ≠ .ready)
    (hstate : TablesInRange s → entryOk e → stateOk e'.state)
    (hattempts : TablesInRange s → entryOk e → e'.attempts ≤ 7)
    (hactive : e'.state.underTest = true → e.state.underTest = true) : EntryTame s e e' := by
  obtain ⟨huse, hcln, -, hnode, -, -, hrated, -, -⟩ := hid
  refine ⟨fun hs he => ?_, hactive⟩
  have hin : e.inUse = true := hfrom.elim id (inUse_of_state he)
  have h1 := hstate hs he
  have h2 := hattempts hs he
  obtain ⟨hr, -, -, hu, -⟩ := he
  exact ⟨by rw [hrated]; exact hr, h1, h2, by rw [hcln, hnode]; exact fun _ => hu hin,
    fun hn => absurd (huse.trans hin) (by rw [hn]; exact Bool.noConfusion)⟩

/-- A new state alone. -/
theorem entryTame_state {s : State} {e : Entry} {st : EntryState} (hfrom : e.inUse = true ∨ e.state ≠ .ready)
    (hstate : TablesInRange s → entryOk e → stateOk st)
    (hactive : st.underTest = true → e.state.underTest = true) : EntryTame s e { e with state := st } :=
  entryTame_of (sameIdentity_refl _) hfrom hstate (fun _ h => h.2.2.1) hactive

/-- The same state and attempts: only history, block reason or flags change. -/
theorem entryTame_same {s : State} {e e' : Entry} (hid : SameIdentity e e')
    (hfrom : e.inUse = true ∨ e.state ≠ .ready) (hst : e'.state = e.state) (hat : e'.attempts = e.attempts) :
    EntryTame s e e' :=
  entryTame_of hid hfrom (fun _ h => hst ▸ h.2.1) (fun _ h => hat ▸ h.2.2.1) (by rw [hst]; exact id)

theorem ne_ready_of_test {st : EntryState} {u : CurrentTest} (h : st.test = some u) : st ≠ .ready := by
  rintro rfl
  cases h

theorem underTest_of_test {st : EntryState} {u : CurrentTest} (h : st.test = some u) : st.underTest = true := by
  cases st with
  | pending t => rfl
  | testing t => rfl
  | ending t => rfl
  | _ => cases h

theorem testOk_of_test {e : Entry} {u : CurrentTest} (he : entryOk e) (h : e.state.test = some u) : testOk u := by
  obtain ⟨-, hs, -⟩ := he
  cases hst : e.state with
  | pending t => rw [hst] at hs h; cases h; exact hs
  | testing t => rw [hst] at hs h; cases h; exact hs
  | ending t => rw [hst] at hs h; cases h; exact hs
  | _ => rw [hst] at h; cases h

theorem tame_setEntry {s : State} {i : EntryId} {e : Entry} (hid : SameIdentity (s.entry i) e)
    (h : EntryTame s (s.entry i) e) : Tame s (s.setEntry i e) := by
  refine ⟨kept_setEntry s i e hid, fun j => ?_⟩
  rw [setEntry_entry]
  split
  · next hij => exact hij ▸ h
  · exact .refl s _

theorem tame_setEntryState {s : State} {i : EntryId} {st : EntryState}
    (hfrom : (s.entry i).inUse = true ∨ (s.entry i).state ≠ .ready)
    (hstate : TablesInRange s → entryOk (s.entry i) → stateOk st)
    (hactive : st.underTest = true → (s.entry i).state.underTest = true) : Tame s (s.setEntryState i st) :=
  tame_setEntry (sameIdentity_refl _) (entryTame_state hfrom hstate hactive)

/-! ### Holds and starts -/

/-- The same entry, or the entry held, which only one in use can be. -/
def HeldAs (e e' : Entry) : Prop := e' = e ∨ e.inUse = true ∧ e' = { e with held := true }

/-- Entries in use may have been held, no other entry changes: what a completing capture can do (R166). -/
def Holds (s t : State) : Prop := ∀ i, HeldAs (s.entry i) (t.entry i)

theorem Holds.refl (s : State) : Holds s s := fun _ => .inl rfl

theorem Holds.trans {s t u : State} (h : Holds s t) (k : Holds t u) : Holds s u := by
  intro i
  rcases h i with ht | ⟨hin, ht⟩
  · rw [← ht]; exact k i
  · rcases k i with hu | ⟨-, hu⟩
    · exact .inr ⟨hin, hu.trans ht⟩
    · exact .inr ⟨hin, by rw [hu, ht]⟩

theorem holds_of_eq {s t : State} (h : t.entries = s.entries) : Holds s t := fun i => .inl (entry_congr h i)

theorem holds_captureHold (s : State) (i : EntryId) : Holds s (s.captureHold i) := by
  unfold State.captureHold
  split
  · next h =>
    simp only [Bool.and_eq_true] at h
    obtain ⟨⟨-, hin⟩, -⟩ := h
    intro j
    rw [setEntry_entry]
    split
    · next hij => subst hij; exact .inr ⟨hin, rfl⟩
    · exact .inl rfl
  · exact .refl s

theorem holds_captureEnd (s : State) (m : Option Nat) (i : EntryId) (a : CaptureAnswer) :
    Holds s (s.captureEnd m i a) := by
  unfold State.captureEnd
  split
  · exact Holds.trans (holds_of_eq (by rw [raise_entries])) (holds_captureHold _ i)
  · exact .refl s

theorem holds_captureEndAll (s : State) (l : List (Option Nat × EntryId)) (a : CaptureAnswer) :
    Holds s (s.captureEndAll l a) :=
  foldl_walk Holds.refl Holds.trans (fun t (r : Option Nat × EntryId) => holds_captureEnd t r.1 r.2 a) l s

theorem holds_removeControl (s : State) (n : LineId) (p : ControlRequest → Bool) (a : CaptureAnswer) :
    Holds s (s.removeControl n p a) :=
  Holds.trans (t := s.setLine n { s.line n with control := (s.line n).control.filter fun c => !p c }) (holds_of_eq rfl)
    (holds_captureEndAll _ _ _)

theorem holds_withdrawPoll (s : State) (i : EntryId) : Holds s (s.withdrawPoll i) :=
  Holds.trans (t := s.setLine (s.entry i).line { s.line (s.entry i).line with
    polls := (s.line (s.entry i).line).polls.filter fun p => p.entry != i }) (holds_of_eq rfl)
    (holds_captureEndAll _ _ _)

/-- A hold never matters to the ranges. -/
theorem entryTame_of_hold {s : State} {e e' : Entry}
    (h : HeldAs e e') : EntryTame s e e' := by
  rcases h with rfl | ⟨hin, rfl⟩
  · exact .refl s _
  · exact entryTame_same (sameIdentity_refl _) (.inl hin) rfl rfl

theorem tame_of_holds {s t : State} (k : Kept s t) (h : Holds s t) : Tame s t :=
  ⟨k, fun i => entryTame_of_hold (h i)⟩

theorem tame_captureEnd (s : State) (m : Option Nat) (i : EntryId) (a : CaptureAnswer) :
    Tame s (s.captureEnd m i a) := tame_of_holds (kept_captureEnd s m i a) (holds_captureEnd s m i a)

theorem tame_captureEndAll (s : State) (l : List (Option Nat × EntryId)) (a : CaptureAnswer) :
    Tame s (s.captureEndAll l a) := tame_of_holds (kept_captureEndAll s l a) (holds_captureEndAll s l a)

theorem tame_removeControl (s : State) (n : LineId) (p : ControlRequest → Bool) (a : CaptureAnswer) :
    Tame s (s.removeControl n p a) := tame_of_holds (kept_removeControl s n p a) (holds_removeControl s n p a)

theorem tame_withdrawPoll (s : State) (i : EntryId) : Tame s (s.withdrawPoll i) :=
  tame_of_holds (kept_withdrawPoll s i) (holds_withdrawPoll s i)

theorem tame_raise (s : State) (f : EventFlag) : Tame s (s.raise f) := tame_of_entries (kept_raise s f) (raise_entries s f)

theorem tame_setLine {s : State} {n : LineId} {l : LineEngine} (h : l.settings = (s.line n).settings) :
    Tame s (s.setLine n l) := tame_of_entries (kept_setLine s n l h) rfl

theorem tame_setEngine (s : State) (n : LineId) (g : Engine) : Tame s (s.setEngine n g) := tame_setLine rfl

theorem tame_of_startsOnly {s t : State} (k : Kept s t) (h : StartsOnly s t) : Tame s t := by
  refine ⟨k, fun i => ?_⟩
  rcases h i with he | ⟨u, hu, he⟩
  · rw [he]; exact .refl s _
  · rw [he]
    exact entryTame_state (.inr (by rw [hu]; exact EntryState.noConfusion))
      (fun _ hok => testOk_of_test hok (u := u) (by rw [hu]; rfl)) (fun _ => by rw [hu]; rfl)

theorem tame_settleLine (s : State) (n : LineId) : Tame s (s.settleLine n) :=
  tame_of_startsOnly (kept_settleLine s n) (startsOnly_settleLine s n)

theorem tame_settleLines (s : State) : Tame s s.settleLines :=
  tame_of_startsOnly (kept_settleLines s) (startsOnly_settleLines s)

/-! ### Verdicts -/

/-- The history of an entry as a verdict writes it (R63, R112). -/
def verdictHistory (s : State) (i : EntryId) (k : Kind) (v : Verdict) : Entry :=
  { s.entry i with lastVerdict := some (v, k) }.recordDone (v.doneFor k) s.clockValid s.minute

theorem verdictMove_entry_ne (s : State) {i j : EntryId} (k : Kind) (v : Verdict) (e : Nat) (h : j ≠ i) :
    (s.verdictMove i k v e).entry j = s.entry j := by
  unfold State.verdictMove
  split
  · rw [raise_entry, setEntryState_entry, if_neg h.symm]
  · rw [setEntryState_entry, if_neg h.symm]

/-- The history and the flag of a verdict written: R112's first steps. -/
def verdictNoted (s : State) (i : EntryId) (k : Kind) (v : Verdict) : State :=
  (s.setEntry i (verdictHistory s i k v)).raiseIf v.flag

theorem verdictNoted_entry (s : State) (i j : EntryId) (k : Kind) (v : Verdict) :
    (verdictNoted s i k v).entry j = if i = j then verdictHistory s i k v else s.entry j := by
  rw [verdictNoted, ReportsAndStops.raiseIf_entry, setEntry_entry]

theorem kept_verdictNoted (s : State) (i : EntryId) (k : Kind) (v : Verdict) : Kept s (verdictNoted s i k v) :=
  (kept_setEntry s i (verdictHistory s i k v) (sameIdentity_refl _)).trans (kept_raiseIf _ _)

/-- The entry's waiting PROBE and its unsent bridge stops withdrawn. -/
def verdictCleared (s : State) (i : EntryId) (k : Kind) (v : Verdict) : State :=
  ((verdictNoted s i k v).withdrawPoll i).removeControl (s.entry i).line (ControlRequest.isStopFor i) .withdrawn

theorem kept_verdictCleared (s : State) (i : EntryId) (k : Kind) (v : Verdict) : Kept s (verdictCleared s i k v) :=
  ((kept_verdictNoted s i k v).trans (kept_withdrawPoll _ i)).trans (kept_removeControl _ _ _ _)

theorem holds_verdictCleared (s : State) (i : EntryId) (k : Kind) (v : Verdict) :
    Holds (verdictNoted s i k v) (verdictCleared s i k v) :=
  (holds_withdrawPoll _ i).trans (holds_removeControl _ _ _ _)

/-- The five steps of R112. -/
theorem recordVerdict_eq {s : State} {i : EntryId} {u : CurrentTest} (h : (s.entry i).state.test = some u)
    (v : Verdict) (e : Nat) : s.recordVerdict i v e = (verdictCleared s i u.kind v).verdictMove i u.kind v e := by
  have hline : ((verdictNoted s i u.kind v).entry i).line = (s.entry i).line := by
    rw [verdictNoted_entry, if_pos rfl]
    rfl
  unfold State.recordVerdict verdictCleared
  rw [h, ← hline]
  rfl

/-- What a verdict makes of its own entry, up to a hold, and of every other: at most a hold (R112, R166). -/
theorem recordVerdict_entries {s : State} {i : EntryId} {u : CurrentTest} (h : (s.entry i).state.test = some u)
    (v : Verdict) (e : Nat) :
    HeldAs { verdictHistory s i u.kind v with state := afterVerdict s i u.kind v e }
      ((s.recordVerdict i v e).entry i) ∧
    ∀ j, j ≠ i → HeldAs (s.entry j) ((s.recordVerdict i v e).entry j) := by
  rw [recordVerdict_eq h]
  have hheld := holds_verdictCleared s i u.kind v
  refine ⟨?_, fun j hj => ?_⟩
  · rw [ReportsAndStops.verdictMove_entry, ReportsAndStops.afterVerdict_of_kept (kept_verdictCleared s i u.kind v)]
    have hi := hheld i
    rw [verdictNoted_entry, if_pos rfl] at hi
    rcases hi with hi | ⟨hin, hi⟩
    · exact .inl (by rw [hi])
    · exact .inr ⟨hin, by rw [hi]⟩
  · rw [verdictMove_entry_ne _ _ _ _ hj]
    have hj' := hheld j
    rwa [verdictNoted_entry, if_neg hj.symm] at hj'

theorem recharge_le {s : State} (hs : TablesInRange s) (e : Entry) : (s.groupOf e).recharge ≤ 2880 := by
  obtain ⟨hg, -⟩ := hs
  obtain ⟨-, -, -, -, -, -, -, -, -, hr⟩ := hg e.group
  change (s.group e.group).rechargeHours * 60 ≤ 2880
  omega

theorem stateOk_rechargeState {left : Nat} (h : left ≤ 2880) : stateOk (rechargeState left) := by
  unfold rechargeState
  split
  · trivial
  · exact ⟨by omega, h⟩

theorem afterVerdict_ok {s : State} {i : EntryId} (hs : TablesInRange s) (he : entryOk (s.entry i)) (k : Kind)
    (v : Verdict) (e : Nat) : stateOk (afterVerdict s i k v e) := by
  unfold afterVerdict
  dsimp only
  split
  · trivial
  · refine stateOk_rechargeState (Nat.le_trans (Recharge.verdictRecharge_le _ _ k v ?_) (recharge_le hs (s.entry i)))
    obtain ⟨hr, -⟩ := he
    omega

theorem afterVerdict_underTest (s : State) (i : EntryId) (k : Kind) (v : Verdict) (e : Nat) :
    (afterVerdict s i k v e).underTest = false := by
  unfold afterVerdict
  dsimp only
  split
  · rfl
  · split <;> rfl

/-- A verdict is tame whatever became of the test record before it: the record is dropped. -/
theorem tame_recordVerdict_of {s a : State} {i : EntryId} {st : EntryState} {u : CurrentTest}
    (hfrom : (s.entry i).state ≠ .ready) (ha : a = s.setEntryState i st) (htest : st.test = some u) (v : Verdict)
    (e : Nat) : Tame s (a.recordVerdict i v e) := by
  subst ha
  have htest' : ((s.setEntryState i st).entry i).state.test = some u := by rw [setEntryState_entry_self]; exact htest
  have hkept := (kept_setEntryState s i st).trans (kept_recordVerdict (s.setEntryState i st) i v e)
  obtain ⟨hi, hj⟩ := recordVerdict_entries htest' v e
  refine ⟨hkept, fun j => ?_⟩
  rcases Decidable.em (j = i) with rfl | hne
  · refine EntryTame.trans (e' := { verdictHistory (s.setEntryState j st) j u.kind v with
      state := afterVerdict (s.setEntryState j st) j u.kind v e }) ?_ (entryTame_of_hold hi)
    rw [ReportsAndStops.afterVerdict_of_kept (kept_setEntryState s j st)]
    have hhistory : SameIdentity (s.entry j) (verdictHistory (s.setEntryState j st) j u.kind v) := by
      simp [verdictHistory, Entry.recordDone, SameIdentity]
    refine entryTame_of hhistory (.inr hfrom) (fun hs hok => afterVerdict_ok hs hok _ _ _) (fun _ hok => ?_) fun hun => ?_
    · simpa [verdictHistory, Entry.recordDone] using hok.2.2.1
    · exact absurd hun (by simp only [afterVerdict_underTest]; exact Bool.noConfusion)
  · have := entryTame_of_hold (s := s) (hj j hne)
    rwa [setEntryState_entry, if_neg (Ne.symm hne)] at this

theorem tame_recordVerdict {s : State} {i : EntryId} {u : CurrentTest} (h : (s.entry i).state.test = some u)
    (v : Verdict) (e : Nat) : Tame s (s.recordVerdict i v e) :=
  tame_recordVerdict_of (ne_ready_of_test h) (setEntry_same s i).symm h v e

/-! ### The Test Monitor -/

section Monitor

variable {s : State} {i : EntryId} {u : CurrentTest}

theorem ne_ready_of_eq {e : Entry} {st : EntryState} (h : e.state = st) (hst : st ≠ .ready) : e.state ≠ .ready := by
  rw [h]
  exact hst

/-- The test record of an entry under test rewritten within its ranges. -/
theorem tame_setTest {st : EntryState} {t : CurrentTest} (h : (s.entry i).state.test = some u) (hst : st.test = some t)
    (ht : TablesInRange s → testOk u → testOk t) : Tame s (s.setEntryState i st) := by
  refine tame_setEntryState (.inr (ne_ready_of_test h)) (fun hs he => ?_) (fun _ => underTest_of_test h)
  have hok := ht hs (testOk_of_test he h)
  cases st with
  | pending _ => cases hst; exact hok
  | testing _ => cases hst; exact hok
  | ending _ => cases hst; exact hok
  | _ => cases hst

theorem stateOk_started {t : CurrentTest} (b : Bool) (h : testOk t) :
    stateOk (if b then .ending t else .testing t) := by
  split <;> exact h

theorem tame_acceptStart (h : (s.entry i).state = .pending u) : Tame s (s.acceptStart i u) := by
  have htest : (s.entry i).state.test = some u := by rw [h]; rfl
  refine tame_setEntry (sameIdentity_refl _) (entryTame_of (sameIdentity_refl _) (.inr (ne_ready_of_test htest))
    (fun hs _ => ?_) (fun _ _ => Nat.zero_le _) (fun _ => underTest_of_test htest))
  obtain ⟨-, hl, -⟩ := hs
  obtain ⟨-, -, -, hpoll⟩ := hl (s.entry i).line
  have hleft : remainingAtAccepted u.kind (s.entry i).rated s.settings.grace ≤ 255 := by
    unfold remainingAtAccepted
    split
    · exact Nat.min_le_left _ _
    · decide
  exact stateOk_started _ ⟨hleft, hleft, Nat.zero_le _, hpoll⟩

/-- The retry delay is a minute at least and a day at most (R95). -/
theorem retryDelay_range {base attempts : Nat} (h : 1 ≤ base) :
    1 ≤ retryDelay base attempts ∧ retryDelay base attempts ≤ 1440 := by
  refine ⟨Nat.le_min.mpr ⟨by decide, ?_⟩, Nat.min_le_left _ _⟩
  exact Nat.mul_pos h (Nat.two_pow_pos _)

theorem tame_raiseIf (s : State) (f : Option EventFlag) : Tame s (s.raiseIf f) := by
  cases f with
  | none => exact .refl s
  | some f => exact tame_raise s f

theorem tame_failStart (h : (s.entry i).state = .pending u) (v : Verdict) : Tame s (s.failStart i u v) := by
  have htest : (s.entry i).state.test = some u := by rw [h]; rfl
  have hfrom := ne_ready_of_test htest
  have hnote : Tame s (s.setEntry i { s.entry i with
      attempts := min ((s.entry i).attempts + 1) s.settings.maxAttempts, lastVerdict := some (v, u.kind) }) := by
    refine tame_setEntry (sameIdentity_refl _) (entryTame_of (sameIdentity_refl _) (.inr hfrom) (fun _ hok => hok.2.1)
      (fun hs _ => ?_) id)
    obtain ⟨-, -, -, ⟨-, -, ⟨-, hmax⟩, -⟩, -⟩ := hs
    exact Nat.le_trans (Nat.min_le_right _ _) hmax
  have hflag := hnote.trans (tame_raiseIf _ v.flag)
  have hstate : ∀ a : State, a.entry i = { s.entry i with
      attempts := min ((s.entry i).attempts + 1) s.settings.maxAttempts, lastVerdict := some (v, u.kind) } →
      (a.entry i).inUse = true ∨ (a.entry i).state ≠ .ready := fun a ha => .inr (by rw [ha]; exact hfrom)
  unfold State.failStart
  dsimp only
  split
  · refine (hflag.trans (tame_setEntryState (st := .faulted) (hstate _ ?_) (fun _ _ => trivial)
      Bool.noConfusion)).trans (tame_raise _ _)
    rw [ReportsAndStops.raiseIf_entry, setEntry_entry_self]
  · refine hflag.trans (tame_setEntryState (hstate _ ?_) (fun hs _ => ?_) Bool.noConfusion)
    · rw [ReportsAndStops.raiseIf_entry, setEntry_entry_self]
    · obtain ⟨-, -, -, ⟨-, -, -, ⟨hbase, -⟩, -⟩, -⟩ := hs
      exact retryDelay_range hbase

theorem tame_takeBack (r : BlockReason) (h : (s.entry i).state ≠ .ready) : Tame s (s.takeBack i r) :=
  tame_setEntry (sameIdentity_refl _) (entryTame_of (sameIdentity_refl _) (.inr h) (fun _ _ => trivial)
    (fun _ hok => hok.2.2.1) Bool.noConfusion)

theorem tame_startEnd (h : (s.entry i).state = .pending u) (e : ExchangeEnd) : Tame s (s.startEnd i u e) := by
  have hfrom : (s.entry i).state ≠ .ready := by rw [h]; exact EntryState.noConfusion
  unfold State.startEnd
  split
  · exact tame_acceptStart h
  · exact tame_failStart h _
  · exact tame_failStart h _
  · exact tame_failStart h _
  · exact tame_takeBack _ hfrom
  · exact tame_takeBack _ hfrom

theorem tame_toEnding {t : CurrentTest} (h : (s.entry i).state.test = some u)
    (ht : TablesInRange s → testOk u → testOk t) : Tame s (s.toEnding i t) :=
  (tame_setTest h rfl ht).trans (tame_withdrawPoll _ i)

theorem testOk_missed {t : CurrentTest} {k : Nat} (h : testOk t) (hk : k ≤ 3) : testOk { t with missed := k } :=
  ⟨h.1, h.2.1, hk, h.2.2.2⟩

theorem tame_consumeTesting (h : (s.entry i).state = .testing u) (r : TestReport) :
    Tame s (s.consumeTesting i u r) := by
  have htest : (s.entry i).state.test = some u := by rw [h]; rfl
  have hclear : Tame s (s.setEntryState i (.testing { u with missed := 0 })) :=
    tame_setTest htest rfl fun _ hu => testOk_missed hu (Nat.zero_le 3)
  have hnow : ((s.setEntryState i (.testing { u with missed := 0 })).entry i).state.test =
      some { u with missed := 0 } := by rw [setEntryState_entry_self]; rfl
  unfold State.consumeTesting
  dsimp only
  split
  · exact hclear.trans (tame_recordVerdict hnow _ _)
  split
  · exact hclear.trans (tame_recordVerdict hnow _ _)
  split
  · split
    · exact hclear
    · exact hclear.trans (tame_toEnding hnow fun _ hu => hu)
  · exact hclear.trans (tame_recordVerdict hnow _ _)

theorem tame_consumeEnding (h : (s.entry i).state = .ending u) (r : TestReport) :
    Tame s (s.consumeEnding i u r) := by
  have htest : (s.entry i).state.test = some u := by rw [h]; rfl
  have hclear : Tame s (s.setEntryState i (.ending { u with missed := 0 })) :=
    tame_setTest htest rfl fun _ hu => testOk_missed hu (Nat.zero_le 3)
  have hnow : ((s.setEntryState i (.ending { u with missed := 0 })).entry i).state.test =
      some { u with missed := 0 } := by rw [setEntryState_entry_self]; rfl
  unfold State.consumeEnding
  dsimp only
  split
  · exact hclear.trans (tame_recordVerdict hnow _ _)
  split
  · exact hclear.trans (tame_recordVerdict hnow _ _)
  · exact hclear

/-- The third missed poll drops the test record, so no more than two are ever kept (R97). -/
theorem tame_missPoll (h : (s.entry i).state = .testing u) : Tame s (s.missPoll i u) := by
  have htest : (s.entry i).state.test = some u := by rw [h]; rfl
  unfold State.missPoll
  dsimp only
  split
  · exact tame_recordVerdict_of (ne_ready_of_test htest) rfl (u := { u with missed := u.missed + 1 }) rfl _ _
  · exact tame_setTest htest rfl fun _ hu => testOk_missed hu (by omega)

theorem tame_joinPoll (s : State) (i : EntryId) : Tame s (s.joinPoll i) :=
  tame_of_entries (kept_joinPoll s i) (joinPoll_entries s i)

theorem tame_endForTesting (h : (s.entry i).state = .testing u) (name : ReqName) (poll : Bool) (e : ExchangeEnd) :
    Tame s (s.endForTesting i u name poll e) := by
  have htest : (s.entry i).state.test = some u := by rw [h]; rfl
  have hmiss : Tame s (if poll then s.missPoll i u else s) := by
    split
    · exact tame_missPoll h
    · exact .refl s
  have hjoin : Tame s (if poll then s.joinPoll i else s) := by
    split
    · exact tame_joinPoll s i
    · exact .refl s
  unfold State.endForTesting
  split
  · split
    · exact tame_consumeTesting h _
    · exact .refl s
    · exact hmiss
    · exact hmiss
    · exact hjoin
    · exact hjoin
  · split
    · exact tame_recordVerdict htest _ _
    · exact .refl s
  · exact .refl s

theorem tame_endForEnding (h : (s.entry i).state = .ending u) (name : ReqName) (e : ExchangeEnd) :
    Tame s (s.endForEnding i u name e) := by
  have htest : (s.entry i).state.test = some u := by rw [h]; rfl
  unfold State.endForEnding
  split
  · split
    · exact tame_consumeEnding h _
    · exact .refl s
  · split
    · exact tame_recordVerdict htest _ _
    · exact .refl s
    · exact tame_recordVerdict htest _ _
    · exact tame_recordVerdict htest _ _
    · exact .refl s
    · exact .refl s
  · exact .refl s

theorem tame_monitorEnd (s : State) (n : LineId) (node : Nat) (name : ReqName) (poll : Bool) (e : ExchangeEnd) :
    Tame s (s.monitorEnd n node name poll e) := by
  unfold State.monitorEnd
  split
  · exact .refl s
  · split
    · next h =>
      unfold State.endForPending
      split
      · exact tame_startEnd h _
      · exact .refl s
    · next h => exact tame_endForTesting h _ _ _
    · next h => exact tame_endForEnding h _ _
    all_goals exact .refl s

theorem tame_remainingOut (h : (s.entry i).state = .testing u) : Tame s (s.remainingOut i u) := by
  have htest : (s.entry i).state.test = some u := by rw [h]; rfl
  unfold State.remainingOut
  dsimp only
  split
  · exact tame_recordVerdict_of (ne_ready_of_test htest) rfl (u := { u with remaining := 0 }) rfl _ _
  · exact tame_toEnding htest fun _ hu => ⟨Nat.zero_le _, hu.2.1, hu.2.2.1, hu.2.2.2⟩

theorem tame_minuteEntry (i : EntryId) (s : State) : Tame s (s.minuteEntry i) := by
  unfold State.minuteEntry
  split
  · next u h =>
    split
    · exact tame_remainingOut h
    · exact tame_setTest (by rw [h]; rfl) rfl fun _ hu => ⟨Nat.le_trans (Nat.sub_le _ _) hu.1, hu.2⟩
  · next left h =>
    have hfrom := ne_ready_of_eq h EntryState.noConfusion
    split
    · exact tame_setEntryState (.inr hfrom) (fun _ _ => trivial) Bool.noConfusion
    · refine tame_setEntryState (.inr hfrom) (fun _ hok => ?_) Bool.noConfusion
      obtain ⟨-, hst, -⟩ := hok
      rw [h] at hst
      exact ⟨by omega, Nat.le_trans (Nat.sub_le _ _) hst.2⟩
  · next left h =>
    have hfrom := ne_ready_of_eq h EntryState.noConfusion
    split
    · exact .refl s
    split
    · exact tame_setEntryState (.inr hfrom) (fun _ _ => trivial) Bool.noConfusion
    · refine tame_setEntryState (.inr hfrom) (fun _ hok => ?_) Bool.noConfusion
      obtain ⟨-, hst, -⟩ := hok
      rw [h] at hst
      exact ⟨by omega, Nat.le_trans (Nat.sub_le _ _) hst.2⟩
  all_goals exact .refl s

theorem tame_pollDue (s : State) (i : EntryId) : Tame s (s.pollDue i) := by
  unfold State.pollDue
  split
  · next u h =>
    refine (tame_setTest (by rw [h]; rfl) rfl fun hs hu => ?_).trans (tame_joinPoll _ _)
    obtain ⟨-, hl, -⟩ := hs
    exact ⟨hu.1, hu.2.1, hu.2.2.1, (hl (s.entry i).line).2.2.2⟩
  · exact .refl s

theorem tame_pollEnd (s : State) (i : EntryId) : Tame s (s.pollEnd i) := (tame_pollDue s i).trans (tame_settleLine _ _)

theorem tame_pollSecond (i : EntryId) (s : State) : Tame s (s.pollSecond i) := by
  unfold State.pollSecond
  split
  · next u h =>
    split
    · exact tame_pollEnd s i
    · exact tame_setTest (u := u) (by rw [h]; rfl) rfl fun _ hu =>
        ⟨hu.1, hu.2.1, hu.2.2.1, Nat.le_trans (Nat.sub_le _ _) hu.2.2.2⟩
  · exact .refl s

end Monitor

/-! ### Resets, outages, the evaluation -/

theorem recharge_pos {s : State} (hs : TablesInRange s) (e : Entry) :
    1 ≤ (s.groupOf e).recharge ∧ (s.groupOf e).recharge ≤ 2880 := by
  refine ⟨?_, recharge_le hs e⟩
  obtain ⟨hg, -⟩ := hs
  obtain ⟨-, -, -, -, -, -, -, -, hr, -⟩ := hg e.group
  change 1 ≤ (s.group e.group).rechargeHours * 60
  omega

theorem entryTame_afterReset {s : State} {e : Entry} (hin : e.inUse = true) :
    EntryTame s e (e.afterReset (s.groupOf e).recharge) := by
  have hrecharge (k : Kind) : EntryTame s e
      { e with state := if k = .duration then .recharging (s.groupOf e).recharge else .ready } := by
    refine entryTame_state (.inl hin) (fun hs _ => ?_) (fun h => ?_)
    · split
      · exact recharge_pos hs e
      · trivial
    · split at h <;> cases h
  unfold Entry.afterReset
  split
  · split
    · exact hrecharge _
    · exact entryTame_of (sameIdentity_refl _) (.inl hin) (fun _ _ => trivial) (fun _ hok => hok.2.2.1) Bool.noConfusion
  · exact hrecharge _
  · exact hrecharge _
  all_goals exact .refl s e

theorem tame_resetEntry (i : EntryId) (s : State) : Tame s (s.resetEntry i) := by
  unfold State.resetEntry
  split
  · next h => exact tame_setEntry (sameIdentity_afterReset _ _) (entryTame_afterReset h)
  · exact .refl s

theorem tame_resetLineEntries (s : State) (n : LineId) : Tame s (s.resetLineEntries n) := by
  refine tame_forEntries (fun i t => ?_) s
  split
  · exact tame_resetEntry i t
  · exact .refl t

theorem tame_touch (s : State) (n : LineId) (r : PassRequest) (e : ExchangeEnd) : Tame s (s.touch n r e) := by
  unfold State.touch
  split
  · split
    · next i hi =>
      split
      · exact tame_setEntry (sameIdentity_refl _)
          (entryTame_same (sameIdentity_refl _) (.inl (findPlace_some hi).1) rfl rfl)
      · exact .refl s
    · exact .refl s
  · exact .refl s

theorem tame_takeBackUnsent (s : State) (i : EntryId) (r : BlockReason) : Tame s (s.takeBackUnsent i r) := by
  unfold State.takeBackUnsent
  split
  · next u h =>
    split
    · exact .refl s
    · exact tame_takeBack r (ne_ready_of_eq h EntryState.noConfusion)
  · exact .refl s

theorem tame_lossEntry (n : LineId) (i : EntryId) (s : State) : Tame s (s.lossEntry n i) := by
  unfold State.lossEntry
  split
  · next hin =>
    simp only [Bool.and_eq_true] at hin
    split
    · next u h =>
      split
      · exact tame_recordVerdict (u := u) (by rw [h]; rfl) _ _
      split
      · refine (tame_removeControl s n _ _).trans (tame_setEntry (sameIdentity_refl _) (entryTame_of
          (sameIdentity_refl _) (.inl ?_) (fun _ _ => trivial) (fun _ hok => hok.2.2.1) Bool.noConfusion))
        exact ((kept_removeControl s n _ _).map i).1.trans hin.1
      · exact .refl s
    · next u h => exact tame_recordVerdict (u := u) (by rw [h]; rfl) _ _
    · next u h => exact tame_recordVerdict (u := u) (by rw [h]; rfl) _ _
    all_goals exact .refl s
  · exact .refl s

/-- The need of the outage recharge is no more than R (R127). -/
theorem outageNeed_le (r x : Nat) {d : Nat} (hd : 0 < d) : outageNeed r x d ≤ r := by
  unfold outageNeed
  rw [Recharge.divUp_le_iff hd]
  exact Nat.mul_le_mul_left r (Nat.min_le_right x d)

theorem tame_restoreEntry (n : LineId) (x : Nat) (i : EntryId) (s : State) : Tame s (s.restoreEntry n x i) := by
  unfold State.restoreEntry
  dsimp only
  split
  · next hin =>
    simp only [Bool.and_eq_true] at hin
    have hneed (hs : TablesInRange s) (hok : entryOk (s.entry i)) :
        outageNeed (s.groupOf (s.entry i)).recharge x (s.entry i).rated ≤ 2880 := by
      obtain ⟨hr, -⟩ := hok
      exact Nat.le_trans (outageNeed_le _ _ (by omega)) (recharge_le hs _)
    refine tame_setEntry (sameIdentity_afterOutage _ _) ?_
    generalize outageNeed (s.groupOf (s.entry i)).recharge x (s.entry i).rated = need at hneed
    unfold Entry.afterOutage
    split
    · split
      · exact .refl s _
      · exact entryTame_state (.inl hin.1) (fun hs hok => ⟨by omega, hneed hs hok⟩) Bool.noConfusion
    · next left h =>
      refine entryTame_state (.inl hin.1) (fun hs hok => ?_) Bool.noConfusion
      obtain ⟨-, hst, -⟩ := id hok
      rw [h] at hst
      exact ⟨Nat.le_trans hst.1 (Nat.le_max_left _ _), Nat.max_le.mpr ⟨hst.2, hneed hs hok⟩⟩
    · split
      · exact .refl s _
      · exact entryTame_of (sameIdentity_refl _) (.inl hin.1) (fun hs hok => ⟨by omega, hneed hs hok⟩)
          (fun _ _ => Nat.zero_le _) Bool.noConfusion
    all_goals exact .refl s _
  · exact .refl s

theorem evaluated_state (e : Entry) (g : GroupSettings) (now : Nat) :
    (e.evaluated g now).state = e.state ∧ (e.evaluated g now).attempts = e.attempts := by
  unfold Entry.evaluated Entry.noteAdded
  dsimp only
  split <;> exact ⟨rfl, rfl⟩

theorem tame_evaluate (s : State) (i : EntryId) (hin : (s.entry i).inUse = true) : Tame s (s.evaluate i) := by
  have hset := tame_setEntry (i := i) (sameIdentity_evaluated (s.entry i) (s.groupOf (s.entry i)) s.minute)
    (entryTame_same (sameIdentity_evaluated _ _ _) (.inl hin) (evaluated_state _ _ _).1 (evaluated_state _ _ _).2)
  unfold State.evaluate
  dsimp only
  split
  · exact hset.trans (tame_raise _ _)
  · exact hset

/-! ### The end of an exchange and the line supply -/

theorem tame_pushTx (s : State) (f : Frame) : Tame s (s.pushTx f) := tame_of_entries (kept_pushTx s f) rfl

theorem tame_joinBacklog (s : State) (n : LineId) (f : Frame) : Tame s (s.joinBacklog n f) := tame_setLine rfl

theorem tame_passAnswerOut (s : State) (n : LineId) (f : Frame) : Tame s (s.passAnswerOut n f) := by
  unfold State.passAnswerOut
  split
  · exact (tame_pushTx s f).trans (tame_setEngine _ n _)
  · exact (tame_joinBacklog s n f).trans (tame_setEngine _ n _)

theorem tame_joinControl (s : State) (n : LineId) (k : ControlKind) (i : EntryId) (node : Nat) :
    Tame s (s.joinControl n k i node) := tame_of_entries (kept_joinControl s n k i node) (joinControl_entries s n k i node)

theorem tame_clientEnd (s : State) (n : LineId) (w : Work) (e : ExchangeEnd) : Tame s (s.clientEnd n w e) := by
  have hstop (r : ControlRequest) :
      Tame s (if (s.line n).control.length < 4 then s.joinControl n .stopTest r.entry r.node else s) := by
    split
    · exact tame_joinControl _ _ _ _ _
    · exact .refl s
  unfold State.clientEnd
  split
  · next r =>
    refine (tame_touch s n r e).trans ?_
    dsimp only
    split
    · exact tame_joinBacklog _ _ _
    · exact tame_passAnswerOut _ _ _
  · split
    · exact hstop _
    · exact hstop _
    · exact .refl s
  · exact .refl s

theorem tame_handEnd (s : State) (n : LineId) (x : Exchange) (e : ExchangeEnd) : Tame s (s.handEnd n x e) :=
  ((tame_monitorEnd s n _ _ _ e).trans (tame_captureEnd _ _ _ _)).trans (tame_clientEnd _ n _ e)

theorem tame_endExchange (s : State) (n : LineId) (x : Exchange) (e : ExchangeEnd) : Tame s (s.endExchange n x e) :=
  (tame_setEngine s n _).trans (tame_handEnd _ n x e)

theorem tame_attemptEnd (s : State) (n : LineId) (x : Exchange) (bad : Bool) : Tame s (s.attemptEnd n x bad) := by
  unfold State.attemptEnd
  dsimp only
  split
  · exact tame_setEngine s n _
  · exact tame_endExchange s n _ _

theorem tame_answerHeard (s : State) (n : LineId) (heard : List Byte) : Tame s (s.answerHeard n heard) := by
  unfold State.answerHeard
  split
  · split
    · exact .refl s
    · exact .refl s
    · exact (tame_attemptEnd s n _ _).trans (tame_settleLine _ n)
    · exact (tame_endExchange s n _ _).trans (tame_settleLine _ n)
  · exact .refl s

theorem tame_windowClose (s : State) (n : LineId) (cut : Bool) : Tame s (s.windowClose n cut) := by
  unfold State.windowClose
  split
  · exact (tame_attemptEnd s n _ _).trans (tame_settleLine _ n)
  · exact .refl s

theorem tame_requestSent (s : State) (n : LineId) : Tame s (s.requestSent n) := by
  unfold State.requestSent
  split
  · exact tame_setEngine s n _
  · exact .refl s

theorem tame_gapEnd (s : State) (n : LineId) : Tame s (s.gapEnd n) := by
  unfold State.gapEnd
  split
  · exact (tame_setEngine s n _).trans (tame_settleLine _ n)
  · exact .refl s

theorem tame_abortLine (s : State) (n : LineId) : Tame s (s.abortLine n) := by
  unfold State.abortLine
  split
  · exact (tame_endExchange s n _ _).trans (tame_settleLine _ n)
  · exact .refl s

theorem tame_dropPassDown (n : LineId) (s : State) (r : PassRequest) : Tame s (s.dropPassDown n r) := by
  unfold State.dropPassDown
  dsimp only
  split
  · exact ((tame_joinBacklog s n _).trans (tame_takeBackUnsent _ _ _)).trans (tame_captureEnd _ _ _ _)
  · exact (tame_joinBacklog s n _).trans (tame_captureEnd _ _ _ _)

theorem tame_dropStartDown (s : State) (c : ControlRequest) : Tame s (s.dropStartDown c) :=
  (tame_takeBackUnsent s _ _).trans (tame_captureEnd _ _ _ _)

theorem tame_supplyFault (s : State) (n : LineId) : Tame s (s.supplyFault n) := by
  unfold State.supplyFault
  dsimp only
  split
  · exact .refl s
  refine Tame.trans ?_ (tame_settleLine _ n)
  refine Tame.trans ?_ (foldl_walk Tame.refl Tame.trans tame_dropStartDown _ _)
  refine Tame.trans ?_ (tame_setLine rfl)
  refine Tame.trans ?_ (foldl_walk Tame.refl Tame.trans (tame_dropPassDown n) _ _)
  refine Tame.trans ?_ (tame_setLine rfl)
  have hoff : Tame s ((s.setLine n { s.line n with
      engine := .down, supplyOn := false, retryTimer := some 10, senseDue := false }).raise .lineFault) :=
    (tame_setLine (by rfl)).trans (tame_raise _ _)
  split
  · exact hoff.trans (tame_handEnd _ n _ _)
  · exact hoff

theorem tame_supplyRetry (s : State) (n : LineId) : Tame s (s.supplyRetry n) := by
  unfold State.supplyRetry
  dsimp only
  split
  · exact tame_setLine rfl
  · exact .refl s

theorem tame_senseRead (s : State) (n : LineId) (limit : Bool) : Tame s (s.senseRead n limit) := by
  have hread : Tame s (s.setLine n { s.line n with senseDue := false }) := tame_setLine rfl
  have hidle : Tame s (s.setLine n { s.line n with engine := .idle, senseDue := false }) := tame_setLine rfl
  unfold State.senseRead
  dsimp only
  split
  · exact .refl s
  split
  · split
    · exact tame_setLine rfl
    · exact hidle.trans (tame_settleLine _ n)
  · split
    · exact hread.trans (tame_supplyFault _ n)
    · exact hread

theorem tame_retrySecond (n : LineId) (s : State) : Tame s (s.retrySecond n) := by
  unfold State.retrySecond
  split
  · split
    · exact tame_supplyRetry s n
    · exact tame_setLine rfl
  · exact .refl s

theorem tame_resetLine (s : State) (n : LineId) : Tame s (s.resetLine n) := by
  have hreset : Tame s (s.setLine n (s.line n).reset) := tame_setLine rfl
  exact ((hreset.trans (foldl_walk Tame.refl Tame.trans (fun t r => tame_joinBacklog t n _) _ _)).trans
    (tame_captureEndAll _ _ _)).trans (tame_resetLineEntries _ n)

theorem tame_resetEngine (n : LineId) (s : State) : Tame s (s.resetEngine n) := tame_setLine rfl

end Sys2Proof.EntryOrder
end

section
/-! The laws of the device, carried together: `Lawful s t` says that a change keeps each of them. Work on tests and lines
is lawful because it is tame and orderly; every other unit has its lemma here. -/

namespace Sys2Proof.DeviceLaws

open Sys2Proof Sys2Proof.Machine Sys2Proof.Machine.Safety Sys2Proof.Laws Sys2Proof.Walks Sys2Proof.LineOrder
  Sys2Proof.EntryOrder

/-! ### The relation -/

/-- A change that keeps every law of the device but the bounds of the queues, each law under what it leans on. -/
structure LawfulButQueues (s t : State) : Prop where
  clock     : ClockLaw s → ClockLaw t
  tables    : TablesInRange s → TablesInRange t
  entries   : TablesInRange s → EntriesInRange s → EntriesInRange t
  unique    : MapUnique s → MapUnique t
  plan      : TablesInRange s → PlanLaw s → PlanLaw t
  notice    : NoticeLaw s → NoticeLaw t
  supply    : SupplyLaw s → SupplyLaw t
  polls     : PollsLaw s → PollsLaw t
  active    : ActiveLaw s → ActiveLaw t
  mains     : TablesInRange s → MainsLaw s → MainsLaw t
  capture   : CaptureLaw s → CaptureLaw t
  blackouts : BlackoutLaw s → BlackoutLaw t

/-- A change that keeps every law of the device. -/
structure Lawful (s t : State) : Prop extends LawfulButQueues s t where
  queues : QueuesBounded s → QueuesBounded t

/-- A change that needs a free transmit place to keep the queues in their bounds; every other law it keeps outright. -/
structure Placed (s t : State) : Prop extends LawfulButQueues s t where
  queues : s.tx.length < 16 → QueuesBounded s → QueuesBounded t

theorem LawfulButQueues.trans {s t u : State} (h : LawfulButQueues s t) (k : LawfulButQueues t u) :
    LawfulButQueues s u where
  clock := k.clock ∘ h.clock
  tables := k.tables ∘ h.tables
  entries := fun hs he => k.entries (h.tables hs) (h.entries hs he)
  unique := k.unique ∘ h.unique
  plan := fun hs hp => k.plan (h.tables hs) (h.plan hs hp)
  notice := k.notice ∘ h.notice
  supply := k.supply ∘ h.supply
  polls := k.polls ∘ h.polls
  active := k.active ∘ h.active
  mains := fun hs hm => k.mains (h.tables hs) (h.mains hs hm)
  capture := k.capture ∘ h.capture
  blackouts := k.blackouts ∘ h.blackouts

theorem Lawful.refl (s : State) : Lawful s s :=
  { clock := id, tables := id, entries := fun _ => id, unique := id, plan := fun _ => id, notice := id, supply := id,
    polls := id, active := id, mains := fun _ => id, capture := id, blackouts := id, queues := id }

theorem Lawful.trans {s t u : State} (h : Lawful s t) (k : Lawful t u) : Lawful s u :=
  { h.toLawfulButQueues.trans k.toLawfulButQueues with queues := k.queues ∘ h.queues }

theorem Lawful.placed {s t : State} (h : Lawful s t) : Placed s t := { h with queues := fun _ => h.queues }

/-- A placement after work that takes no transmit place. -/
theorem Lawful.place {s t u : State} (h : Lawful s t) (htx : t.tx.length ≤ s.tx.length) (k : Placed t u) :
    Placed s u :=
  { h.toLawfulButQueues.trans k.toLawfulButQueues with
    queues := fun room q => k.queues (Nat.lt_of_le_of_lt htx room) (h.queues q) }

/-- A placement and work after it. -/
theorem Placed.andThen {s t u : State} (h : Placed s t) (k : Lawful t u) : Placed s u :=
  { h.toLawfulButQueues.trans k.toLawfulButQueues with queues := fun room q => k.queues (h.queues room q) }

theorem Placed.lawful {s t : State} (h : Placed s t) (room : s.tx.length < 16) : Lawful s t :=
  { h with queues := h.queues room }

theorem lawful_forEntries {f : EntryId → State → State} (h : ∀ i s, Lawful s (f i s)) (s : State) :
    Lawful s (forEntries f s) := foldl_walk Lawful.refl Lawful.trans (fun t i => h i t) _ s

theorem lawful_forLines {f : LineId → State → State} (h : ∀ n s, Lawful s (f n s)) (s : State) :
    Lawful s (forLines f s) := foldl_walk Lawful.refl Lawful.trans (fun t n => h n t) _ s

/-! ### Work on tests and lines -/

theorem clockLaw_congr {s t : State} (hm : t.minute = s.minute) (hv : t.clockValid = s.clockValid)
    (hs : t.seconds = s.seconds) (hg : t.mgmt = s.mgmt) (h : ClockLaw s) : ClockLaw t := by
  unfold ClockLaw clockInHand at *
  rwa [hm, hv, hs, hg]

theorem planLaw_congr {s t : State} (hp : t.plan = s.plan) (hs : t.passState = s.passState) (h : PlanLaw s) :
    PlanLaw t := by
  unfold PlanLaw walkFront at *
  rwa [hp, hs]

theorem mapUnique_of_sameMap {s t : State} (h : SameMap s t) (hu : MapUnique s) : MapUnique t := by
  intro i j hij hi hj
  obtain ⟨huse, hcln, hline, hnode, -⟩ := h i
  obtain ⟨huse', hcln', hline', hnode', -⟩ := h j
  rw [huse] at hi
  rw [huse'] at hj
  rw [hcln, hcln', hline, hline', hnode, hnode']
  exact hu i j hij hi hj

/-- A count can only fall when every entry counted after was counted before. -/
theorem count_le {s t : State} {p : Entry → Bool} (h : ∀ i, p (t.entry i) = true → p (s.entry i) = true) :
    t.count p ≤ s.count p := by
  rw [count_eq_countP, count_eq_countP]
  exact List.countP_mono_left fun i _ => h i

theorem lineActive_le {s t : State} (h : Tame s t) (n : LineId) : t.lineActive n ≤ s.lineActive n := by
  refine count_le fun i hi => ?_
  obtain ⟨huse, -, hline, -⟩ := h.kept.map i
  simp only [Bool.and_eq_true] at hi ⊢
  rw [huse, hline] at hi
  exact ⟨⟨hi.1.1, (h.entry i).active hi.1.2⟩, hi.2⟩

/-- What `Kept` says of the laws it is about; the entries and the lines stay to be shown. -/
theorem lawful_of_kept {n : LineId} {s t : State} (k : Kept s t) (o : Orderly n 0 0 s t)
    (entries : TablesInRange s → EntriesInRange s → EntriesInRange t) (active : ActiveLaw s → ActiveLaw t) :
    Lawful s t where
  queues := o.queues
  clock := clockLaw_congr k.minute k.clockValid k.seconds k.mgmt
  tables := tables_of_kept k
  entries := entries
  unique := mapUnique_of_sameMap k.map
  plan := fun _ => planLaw_congr k.plan k.passState
  notice := o.notice
  supply := o.supply
  polls := o.polls
  active := active
  mains := fun _ h n => by unfold State.mainsLine; rw [k.mains]; exact h n
  capture := o.capture
  blackouts := fun h => by unfold BlackoutLaw; rw [k.blackouts]; exact h

theorem lawful_of_orderly {n : LineId} {s t : State} (h : Tame s t) (o : Orderly n 0 0 s t) : Lawful s t :=
  lawful_of_kept h.kept o (fun hs he i => (h.entry i).ranges hs (he i))
    fun ha m => Nat.le_trans (lineActive_le h m) (ha m)

theorem lawful_of_calm {s t : State} (h : Tame s t) (o : Calm s t) : Lawful s t := lawful_of_orderly h (o 0 0)

theorem lawful_settleLine (s : State) (n : LineId) : Lawful s (s.settleLine n) :=
  lawful_of_calm (tame_settleLine s n) (calm_settleLine s n)

theorem lawful_settleLines (s : State) : Lawful s s.settleLines :=
  lawful_of_calm (tame_settleLines s) (calm_lineWork.settleLines s)

theorem lawful_raise (s : State) (f : EventFlag) : Lawful s (s.raise f) :=
  lawful_of_calm (tame_raise s f) (calm_raise s f)

theorem lawful_setEntry {s : State} {i : EntryId} {e : Entry} (hid : SameIdentity (s.entry i) e)
    (h : EntryTame s (s.entry i) e) : Lawful s (s.setEntry i e) :=
  lawful_of_calm (tame_setEntry hid h) (calm_setEntry s i e)

theorem lawful_setEntryState {s : State} {i : EntryId} {st : EntryState}
    (hfrom : (s.entry i).inUse = true ∨ (s.entry i).state ≠ .ready)
    (hstate : TablesInRange s → entryOk (s.entry i) → stateOk st)
    (hactive : st.underTest = true → (s.entry i).state.underTest = true) : Lawful s (s.setEntryState i st) :=
  lawful_of_calm (tame_setEntryState hfrom hstate hactive) (calm_setEntry s i _)

/-! ### Updates no law reads -/

/-- The fields that no law mentions. -/
theorem lawful_unread (s : State) (strap : Byte) (portOpen linkUp lampWaiting : Bool) (rotation : Waiter)
    (save : Option SavePhase) (flash : List Byte) (rows : Vector CalendarRow 7) (policy : Vector Bool 8)
    (flags : BitVec 14) (number : BitVec 16) (pending : List Instr) :
    Lawful s { s with
      strap := strap, portOpen := portOpen, linkUp := linkUp, lampWaiting := lampWaiting, rotation := rotation
      save := save, flash := flash, rows := rows, policy := policy, flags := flags, noticeNumber := number
      pending := pending } := { Lawful.refl s with }

/-- The receive queue shortened, or with room for what it gains. -/
theorem lawful_rx {s : State} {rx : List Frame} (waiting : Bool) (h : s.rx.length ≤ 16 → rx.length ≤ 16) :
    Lawful s { s with rx := rx, lampWaiting := waiting } :=
  { Lawful.refl s with queues := fun ⟨hrx, hq⟩ => ⟨h hrx, hq⟩ }

/-! ### The transmit queue and the notices -/

theorem bounded_pushTx {s : State} {f : Frame} (room : s.tx.length < 16) (h : QueuesBounded s) :
    QueuesBounded (s.pushTx f) := by
  obtain ⟨hrx, -, hq⟩ := h
  refine ⟨hrx, ?_, hq⟩
  rw [pushTx_tx, List.length_append, List.length_singleton]
  omega

theorem placed_pushTx (s : State) {f : Frame} (hf : f.isNotice = false) : Placed s (s.pushTx f) := by
  have hn : noticesQueued (s.pushTx f) = noticesQueued s := by
    simp [noticesQueued, State.pushTx, List.countP_append, hf]
  refine { Lawful.refl s with queues := bounded_pushTx, notice := ?_ }
  rintro ⟨h1, h2, h3, hb, hh⟩
  exact ⟨hn ▸ h1, hn ▸ h2, hn ▸ h3, hb, hh⟩

/-- The Management Engine's state, where it holds no NOTICE and no time beyond the clock's range. -/
theorem lawful_mgmt {s : State} {m : MgmtState} (hn : NoticeLaw s → ∀ f, m = .answering f → f.isNotice = false)
    (hc : ClockLaw s → ∀ who k, m = .working who (.request (.setClock k)) → k ≤ maxMinute) :
    Lawful s { s with mgmt := m } := by
  refine { Lawful.refl s with clock := ?_, notice := ?_ }
  · intro h
    have hk := hc h
    obtain ⟨h1, h2, h3, -⟩ := h
    refine ⟨h1, h2, h3, ?_⟩
    simp only [clockInHand]
    intro k hmem
    split at hmem
    · cases hmem; exact hk _ _ rfl
    · cases hmem
  · intro h
    have hf := hn h
    obtain ⟨h1, h2, h3, hb, -⟩ := h
    refine ⟨h1, h2, h3, hb, ?_⟩
    simp only [heldAnswer]
    intro f hmem
    split at hmem
    · cases hmem; exact hf _ rfl
    · cases hmem

theorem lawful_mgmt_idle (s : State) : Lawful s { s with mgmt := .idle } :=
  lawful_mgmt (fun _ _ h => nomatch h) (fun _ _ _ h => nomatch h)

/-- An answer is given: in the transmit queue, or held (R168). -/
theorem lawful_finish (s : State) (who : Requester) (request : Nat) (code : MgmtCode) (fields : List Byte) :
    Lawful s (s.finish who request code fields) := by
  unfold State.finish
  split
  · exact lawful_mgmt (fun _ f h => by cases h; rfl) (fun _ _ _ h => nomatch h)
  · next h =>
    exact ((placed_pushTx s rfl).lawful (txFull_false.mp (by simpa using h))).trans (lawful_mgmt_idle _)

/-- A pending notice is built: the only NOTICE in the transmit queue (R185). -/
theorem placed_buildNotice {s : State} (hp : s.noticePending = true) : Placed s s.buildNotice := by
  refine { Lawful.refl s with queues := bounded_pushTx (f := s.noticeFrame), notice := ?_ }
  rintro ⟨-, h2, h3, hb, hh⟩
  have hone : noticesQueued s.buildNotice = 1 := by
    have : s.tx.countP Frame.isNotice = 0 := h2 hp
    simp [noticesQueued, State.buildNotice, List.countP_append, this, State.noticeFrame, State.frameTo,
      Frame.isNotice]
  exact ⟨Nat.le_of_eq hone, fun h => (nomatch h), fun _ => hone, hb, hh⟩

theorem lawful_noticeBuild (s : State) : Lawful s s.noticeBuild := by
  unfold State.noticeBuild
  split
  · next h =>
    obtain ⟨hp, hroom⟩ := Bool.and_eq_true_iff.mp h
    exact (placed_buildNotice hp).lawful (txFull_false.mp (by simpa using hroom))
  · exact .refl s

/-- A frame leaves the transmit queue from its head; an owed notice becomes pending when it was the NOTICE (R184). -/
theorem lawful_headSent {s : State} {f : Frame} {rest : List Frame} (h : s.tx = f :: rest) :
    Lawful s (State.noticeSent { s with tx := rest } f) := by
  have hcount : noticesQueued s = rest.countP Frame.isNotice + if f.isNotice = true then 1 else 0 := by
    unfold noticesQueued
    rw [h, List.countP_cons]
  have hlen : rest.length ≤ s.tx.length := by rw [h]; exact Nat.le_succ _
  unfold State.noticeSent
  split
  · next hc =>
    obtain ⟨hf, howed⟩ := Bool.and_eq_true_iff.mp hc
    refine { Lawful.refl s with queues := fun ⟨hrx, htx, hq⟩ => ⟨hrx, Nat.le_trans hlen htx, hq⟩, notice := ?_ }
    rintro ⟨h1, -, -, hb, hh⟩
    rw [hcount, if_pos hf] at h1
    have hzero : rest.countP Frame.isNotice = 0 := by omega
    exact ⟨by simp only [noticesQueued, hzero]; omega, fun _ => hzero, fun h => (nomatch h), hb, hh⟩
  · next hc =>
    refine { Lawful.refl s with queues := fun ⟨hrx, htx, hq⟩ => ⟨hrx, Nat.le_trans hlen htx, hq⟩, notice := ?_ }
    rintro ⟨h1, h2, h3, hb, hh⟩
    rw [hcount] at h1 h2 h3
    refine ⟨by simp only [noticesQueued]; omega, fun hp => ?_, fun ho => ?_, hb, hh⟩
    · have := h2 hp; simp only [noticesQueued]; omega
    · have hone := h3 ho
      have hf : f.isNotice = false := by
        change s.noticeOwed = true at ho
        simpa [ho] using hc
      rw [if_neg (by simp [hf])] at hone
      exact hone

/-- A NOTICE among the answers owed breaks the NOTICE law, so placing an answer keeps it in any case. -/
theorem placed_answer {s : State} {f : Frame} (h : NoticeLaw s → f.isNotice = false) : Placed s (s.pushTx f) := by
  rcases hf : f.isNotice with _ | _
  · exact placed_pushTx s hf
  · refine { Lawful.refl s with queues := bounded_pushTx, notice := fun hn => ?_ }
    rw [h hn] at hf
    cases hf

/-- The answer at the head of a backlog is placed (R140). -/
theorem placed_placeBacklog (s : State) (n : LineId) : Placed s (s.placeBacklog n) := by
  unfold State.placeBacklog
  split
  · exact (Lawful.refl s).placed
  · next f rest hb =>
    have hpush : Placed s (s.pushTx f) := placed_answer fun hn => by
      obtain ⟨-, -, -, hl, -⟩ := hn
      exact hl n f (by rw [hb]; exact .head _)
    have hline : LineCalm (s.line n) { s.line n with
        backlog := rest, engine := if rest.isEmpty && (s.line n).engine.isHolding then .gap else (s.line n).engine } := by
      split
      · next hc =>
        have hup : (s.line n).engine.isDown = false := by
          have hh := (Bool.and_eq_true_iff.mp hc).2
          cases he : (s.line n).engine with
          | holding => rfl
          | _ => rw [he] at hh; cases hh
        refine ⟨Nat.le.refl, Nat.le_max_left _ _, ?_, fun g hg => by rw [hb]; exact .tail _ hg,
          supplyOk_of_up hup rfl rfl rfl, id⟩
        simp only [load, hb, List.length_cons, passInFlight, Engine.exchange]
        omega
      · refine ⟨Nat.le.refl, Nat.le_max_left _ _, ?_, fun g hg => by rw [hb]; exact .tail _ hg, id, id⟩
        simp only [load, hb, List.length_cons, passInFlight]
        omega
    exact hpush.andThen (lawful_of_calm (tame_setLine (s := s.pushTx f) (n := n) (by rfl)) (calm_setLine hline))

theorem lawful_backlogPlace (s : State) (n : LineId) : Lawful s (s.backlogPlace n) := by
  unfold State.backlogPlace
  split
  · exact .refl s
  · next h => exact (placed_placeBacklog s n).lawful (txFull_false.mp (by simpa using h))

theorem placed_placeMgmt (s : State) : Placed s s.placeMgmt := by
  unfold State.placeMgmt
  split
  · next f hf =>
    have hpush : Placed s (s.pushTx f) := placed_answer fun hn => by
      obtain ⟨-, -, -, -, hh⟩ := hn
      exact hh f (by simp [heldAnswer, hf])
    exact hpush.andThen (lawful_mgmt_idle _)
  · exact (Lawful.refl s).placed
  · exact (Lawful.refl s).placed

theorem lawful_mgmtPlace (s : State) : Lawful s s.mgmtPlace := by
  unfold State.mgmtPlace
  split
  · exact .refl s
  · next h => exact (placed_placeMgmt s).lawful (txFull_false.mp (by simpa using h))

/-! ### The move into PENDING -/

/-- One more entry under test on a line with fewer than 12 (R11, R86, R105). -/
theorem lawful_toPending {s : State} {i : EntryId} (k : Kind) (o : Origin) (hin : (s.entry i).inUse = true)
    (hlimit : s.lineActive (s.entry i).line < 12) : Lawful s (s.setEntry i ((s.entry i).toPending k o)) := by
  refine lawful_of_kept (kept_setEntry s i _ (sameIdentity_refl _)) (calm_setEntry s i _ 0 0) (fun _ he j => ?_)
    fun ha n => ?_
  · rw [setEntry_entry]
    split
    · next hij =>
      subst hij
      obtain ⟨hr, -, hat, hu, -⟩ := he i
      exact ⟨hr, by simp [Entry.toPending, stateOk, testOk, CurrentTest.fresh], hat, hu,
        fun hn => absurd hin (by rw [show (s.entry i).inUse = false from hn]; exact Bool.noConfusion)⟩
    · exact he j
  · have hcount := count_setEntry s i ((s.entry i).toPending k o)
      fun e => e.inUse && e.state.underTest && e.line == n
    change (s.setEntry i ((s.entry i).toPending k o)).lineActive n + _ = s.lineActive n + _ at hcount
    rcases Decidable.em (n = (s.entry i).line) with rfl | hne
    · split at hcount <;> split at hcount <;> omega
    · have hoff : ¬((s.entry i).line == n) = true := by simpa using Ne.symm hne
      have hn := ha n
      simp only [Entry.toPending, hoff, Bool.and_false, Bool.false_eq_true, if_false] at hcount
      simp only [Entry.toPending]
      omega

theorem lawful_joinControl {s : State} {n : LineId} (k : ControlKind) (i : EntryId) (node : Nat)
    (h : (s.line n).control.length < 4) : Lawful s (s.joinControl n k i node) :=
  lawful_of_calm (tame_joinControl s n k i node) (calm_joinControl s n k i node h)

/-! ### The Scheduler -/

theorem ite_eq_of_ne {α : Type} {c : Prop} [Decidable c] {a b x : α} (h : a ≠ x) :
    (if c then a else b) = x ↔ ¬c ∧ b = x := by
  split
  · next hc => exact ⟨fun e => absurd e h, fun k => absurd hc k.1⟩
  · next hc => exact ⟨fun e => ⟨hc, e⟩, fun k => k.2⟩

theorem isReady_iff {st : EntryState} : st.isReady = true ↔ st = .ready := by
  cases st <;> simp [EntryState.isReady]

theorem admitted_iff {s : State} {r : PlanRecord} : s.admissionResult r = .admitted ↔
    let e := s.entry r.entry
    e.inUse = true ∧ e.state = .ready ∧ e.barred = false ∧ e.held = false ∧ s.inOutage e.line = false ∧
      s.inHoldOff e.line = false ∧ s.lineDown e.line = false ∧
      s.spanPermitted s.minute (e.spanLength r.kind) (s.groupOf e).occupancy = true ∧ s.quotaOk e.group = true ∧
      s.lineActive e.line < 12 ∧ (s.line e.line).control.length < 4 := by
  unfold State.admissionResult
  simp [ite_eq_of_ne, isReady_iff, and_assoc]

theorem blocked_inUse {s : State} {r : PlanRecord} {b : BlockReason} (h : s.admissionResult r = .blocked b) :
    (s.entry r.entry).inUse = true := by
  unfold State.admissionResult at h
  dsimp only at h
  split at h
  · cases h
  · next hin => simpa using hin

theorem lawful_admitRecord (s : State) (r : PlanRecord) : Lawful s (s.admitRecord r) := by
  unfold State.admitRecord
  split
  · exact .refl s
  · next reason h =>
    exact lawful_setEntry (sameIdentity_refl _) (entryTame_same (sameIdentity_refl _) (.inl (blocked_inUse h)) rfl rfl)
  · next h =>
    obtain ⟨hin, -, -, -, -, -, -, -, -, hactive, hcontrol⟩ := admitted_iff.mp h
    exact (lawful_toPending r.kind .scheduler hin hactive).trans (lawful_joinControl _ _ _ hcontrol)

/-- A pass ends (R71, R80). -/
theorem lawful_endPass (s : State) : Lawful s s.endPass :=
  { Lawful.refl s with plan := fun _ _ => ⟨Nat.zero_le _, .nil, .nil, fun _ h => (nomatch h), fun _ => rfl,
      fun _ h => (nomatch h)⟩ }

theorem planLaw_start (s : State) : PlanLaw { s with passState := .walking 0, plan := [] } :=
  ⟨Nat.zero_le _, .nil, .nil, fun _ h => (nomatch h), fun h => (nomatch h), fun _ h => (nomatch h)⟩

theorem lawful_passExpiry (s : State) : Lawful s s.passExpiry := by
  unfold State.passExpiry
  split
  · exact { Lawful.refl s with plan := fun _ _ => planLaw_start s }
  · exact .refl s

theorem lawful_passTimer {s : State} {k : Nat} (h : TablesInRange s → k ≤ 14) : Lawful s { s with passTimer := k } :=
  { Lawful.refl s with tables := fun hs => ⟨hs.1, hs.2.1, hs.2.2.1, hs.2.2.2.1, h hs⟩ }

theorem lawful_passMinute (s : State) : Lawful s s.passMinute := by
  unfold State.passMinute
  split
  · exact (lawful_passTimer fun _ => Nat.zero_le _).trans (lawful_passExpiry _)
  · next h =>
    refine lawful_passTimer fun hs => ?_
    obtain ⟨-, -, -, ⟨⟨-, hmax⟩, -⟩, -⟩ := hs
    omega

theorem lawful_passTimerEnd (s : State) : Lawful s s.passTimerEnd := by
  unfold State.passTimerEnd
  split
  · exact (lawful_passTimer fun _ => Nat.zero_le _).trans (lawful_passExpiry _)
  · exact .refl s

/-- Admission takes the first record of the list (R79). -/
theorem lawful_tailPlan {s : State} {r : PlanRecord} {rest : List PlanRecord} (h : s.plan = r :: rest)
    (hstate : s.passState = .admitting) : Lawful s { s with plan := rest } := by
  refine { Lawful.refl s with plan := ?_ }
  rintro - ⟨hlen, hord, hne, hscore, -, hfront⟩
  rw [h] at hlen hord hne hscore hfront
  refine ⟨Nat.le_trans (Nat.le_succ _) hlen, (List.pairwise_cons.mp hord).2, (List.pairwise_cons.mp hne).2,
    fun x hx => hscore x (.tail _ hx), fun hidle => ?_, fun x hx => hfront x (.tail _ hx)⟩
  rw [show s.passState = .idle from hidle] at hstate
  cases hstate

theorem lawful_endIfEmpty (s : State) : Lawful s s.endIfEmpty := by
  unfold State.endIfEmpty
  split
  · exact lawful_endPass s
  · exact .refl s

theorem lawful_admissionStep (s : State) : Lawful s s.admissionStep := by
  unfold State.admissionStep
  split
  · next hstate =>
    split
    · split
      · exact lawful_endPass s
      · next r rest hplan =>
        exact (((lawful_tailPlan hplan hstate).trans (lawful_admitRecord _ r)).trans (lawful_settleLine _ _)).trans
          (lawful_endIfEmpty _)
    · exact lawful_endPass s
  · exact .refl s
  · exact .refl s

/-! ### The walk -/

theorem mem_insertPlan {c r : PlanRecord} {l : List PlanRecord} (h : r ∈ insertPlan c l) : r = c ∨ r ∈ l := by
  unfold insertPlan at h
  split at h
  · exact List.mem_cons.mp ((PlanList.placePlan_perm c l).mem_iff.mp h)
  · split at h
    · split at h
      · rcases List.mem_cons.mp ((PlanList.placePlan_perm c _).mem_iff.mp h) with h | h
        · exact .inl h
        · exact .inr ((List.dropLast_sublist _).subset h)
      · exact .inr h
    · exact .inr h

theorem length_insertPlan {c : PlanRecord} {l : List PlanRecord} (h : l.length ≤ 16) : (insertPlan c l).length ≤ 16 := by
  unfold insertPlan
  split
  · rw [(PlanList.placePlan_perm c l).length_eq, List.length_cons]
    omega
  · split
    · split
      · rw [(PlanList.placePlan_perm c _).length_eq, List.length_cons, List.length_dropLast]
        omega
      · exact h
    · exact h

theorem entries_insertPlan {c : PlanRecord} {l : List PlanRecord} (hl : l.Pairwise fun a b => a.entry ≠ b.entry)
    (hc : ∀ r ∈ l, r.entry ≠ c.entry) : (insertPlan c l).Pairwise fun a b => a.entry ≠ b.entry := by
  have hplace (l : List PlanRecord) (hl : l.Pairwise fun a b => a.entry ≠ b.entry)
      (hc : ∀ r ∈ l, r.entry ≠ c.entry) : (placePlan c l).Pairwise fun a b => a.entry ≠ b.entry :=
    ((PlanList.placePlan_perm c l).pairwise_iff fun h => h.symm).mpr
      (List.pairwise_cons.mpr ⟨fun r hr => (hc r hr).symm, hl⟩)
  unfold insertPlan
  split
  · exact hplace l hl hc
  · split
    · split
      · exact hplace _ (hl.sublist (List.dropLast_sublist l)) fun r hr => hc r ((List.dropLast_sublist l).subset hr)
      · exact hl
    · exact hl

theorem progress_le (e : Entry) (g : GroupSettings) (k : Kind) (now : Nat) : e.progress g k now ≤ 4000 :=
  Nat.min_le_left _ _

theorem score_le {k : Kind} {p w : Nat} (hp : p ≤ 4000) (hw : w ≤ 15) : scoreOf k p w ≤ 60500 := by
  have : p * w ≤ 4000 * 15 := Nat.mul_le_mul hp hw
  cases k <;> simp only [scoreOf] <;> omega

/-- A candidate is of the entry evaluated, with a score of the plan list's range (R60, R61). -/
theorem candidateOf_some {s : State} {i : EntryId} {c : PlanRecord} (h : s.candidateOf i = some c) :
    c.entry = i ∧ (TablesInRange s → c.score ≤ 60500) := by
  have hweight (hs : TablesInRange s) : (s.groupOf (s.entry i)).weight ≤ 15 := (hs.1 (s.entry i).group).2.1.2
  unfold State.candidateOf Entry.candidate at h
  dsimp only at h
  split at h
  · cases h; exact ⟨rfl, fun hs => by simpa only using score_le (progress_le _ _ _ _) (hweight hs)⟩
  · split at h
    · cases h; exact ⟨rfl, fun hs => by simpa only using score_le (progress_le _ _ _ _) (hweight hs)⟩
    · cases h

theorem isCandidate_inUse {s : State} {i : EntryId} (h : s.isCandidate i = true) : (s.entry i).inUse = true := by
  unfold State.isCandidate at h
  simp only [Bool.and_eq_true] at h
  exact h.1.1.1.1.1.1

/-- The plan list while entry `i` is read: every record is of an entry up to `i`. -/
structure PlanUpTo (i : EntryId) (l : List PlanRecord) : Prop where
  length  : l.length ≤ 16
  order   : l.Pairwise fun a b => a.before b = true
  entries : l.Pairwise fun a b => a.entry ≠ b.entry
  scores  : ∀ r ∈ l, r.score ≤ 60500
  upTo    : ∀ r ∈ l, r.entry.val ≤ i.val

theorem walkOne_plan {s : State} {i : EntryId} (hw : s.passState = .walking i) (hs : TablesInRange s)
    (h : PlanLaw s) : PlanUpTo i (s.walkOne i).plan := by
  obtain ⟨hlen, hord, hne, hscore, -, hfront⟩ := h
  have hlt : ∀ r ∈ s.plan, r.entry.val < i.val := by
    intro r hr
    have := hfront r hr
    rwa [walkFront, hw] at this
  have hkeep : PlanUpTo i s.plan := ⟨hlen, hord, hne, hscore, fun r hr => Nat.le_of_lt (hlt r hr)⟩
  have hplan : (s.evaluate i).plan = s.plan := (kept_evaluate s i).plan
  unfold State.walkOne
  split
  · unfold State.offerPlan
    split
    · next c hc =>
      obtain ⟨rfl, hcs⟩ := candidateOf_some hc
      have hnew : ∀ r ∈ s.plan, r.entry ≠ c.entry := fun r hr e => absurd (hlt r hr) (by rw [e]; exact Nat.lt_irrefl _)
      dsimp only
      rw [hplan]
      refine ⟨length_insertPlan hlen, PlanList.insertPlan_pairwise hord hnew, entries_insertPlan hne hnew,
        fun r hr => ?_, fun r hr => ?_⟩
      · rcases mem_insertPlan hr with rfl | hr
        · exact hcs hs
        · exact hscore r hr
      · rcases mem_insertPlan hr with rfl | hr
        · exact Nat.le.refl
        · exact Nat.le_of_lt (hlt r hr)
    · rw [hplan]; exact hkeep
  · exact hkeep

theorem walkOn_planLaw {s : State} {i : EntryId} (h : PlanUpTo i s.plan) : PlanLaw (s.walkOn i) := by
  obtain ⟨hlen, hord, hne, hscore, hup⟩ := h
  unfold State.walkOn
  split
  · exact ⟨hlen, hord, hne, hscore, fun h => (nomatch h), fun r hr => Nat.lt_succ_of_le (hup r hr)⟩
  · split
    · exact ⟨Nat.zero_le _, .nil, .nil, fun _ h => (nomatch h), fun _ => rfl, fun _ h => (nomatch h)⟩
    · exact ⟨hlen, hord, hne, hscore, fun h => (nomatch h), fun r _ => r.entry.isLt⟩

/-- `t` is `s` but for the pass state and the plan list. -/
def PlanOnly (s t : State) : Prop := ∃ p l, t = { s with passState := p, plan := l }

theorem PlanOnly.trans {s t u : State} (h : PlanOnly s t) (k : PlanOnly t u) : PlanOnly s u := by
  obtain ⟨p, l, rfl⟩ := h
  obtain ⟨p', l', rfl⟩ := k
  exact ⟨p', l', rfl⟩

theorem lawful_planOnly {s t u : State} (h : Lawful s t) (hu : PlanOnly t u)
    (hp : TablesInRange s → PlanLaw s → PlanLaw u) : Lawful s u := by
  obtain ⟨p, l, rfl⟩ := hu
  exact { h with plan := hp }

theorem planOnly_offerPlan (s : State) (c : Option PlanRecord) : PlanOnly s (s.offerPlan c) := by
  cases c with
  | none => exact ⟨s.passState, s.plan, rfl⟩
  | some c => exact ⟨s.passState, insertPlan c s.plan, rfl⟩

theorem planOnly_walkOn (s : State) (i : EntryId) : PlanOnly s (s.walkOn i) := by
  unfold State.walkOn
  split
  · exact ⟨_, s.plan, rfl⟩
  · split
    · exact ⟨_, _, rfl⟩
    · exact ⟨_, s.plan, rfl⟩

theorem lawful_walkOne_walkOn {s : State} {i : EntryId} (hw : s.passState = .walking i) :
    Lawful s ((s.walkOne i).walkOn i) := by
  have hlaw : TablesInRange s → PlanLaw s → PlanLaw ((s.walkOne i).walkOn i) :=
    fun hs hp => walkOn_planLaw (walkOne_plan hw hs hp)
  unfold State.walkOne at hlaw ⊢
  split at hlaw
  · next hc =>
    rw [if_pos hc]
    exact lawful_planOnly (lawful_of_calm (tame_evaluate s i (isCandidate_inUse hc)) (calm_testWork.evaluate s i))
      ((planOnly_offerPlan _ _).trans (planOnly_walkOn _ i)) hlaw
  · next hc =>
    rw [if_neg hc]
    exact lawful_planOnly (.refl s) (planOnly_walkOn s i) hlaw

theorem lawful_walkStep (s : State) : Lawful s s.walkStep := by
  unfold State.walkStep
  split
  · next i hw =>
    split
    · exact lawful_walkOne_walkOn hw
    · exact lawful_endPass s
  · exact .refl s
  · exact .refl s

end Sys2Proof.DeviceLaws
end

section
/-! Time, Mains Sense and the tick keep the laws of the device. -/

namespace Sys2Proof.DeviceLaws

open Sys2Proof Sys2Proof.Machine Sys2Proof.Machine.Safety Sys2Proof.Laws Sys2Proof.Walks Sys2Proof.LineOrder
  Sys2Proof.EntryOrder

/-! ### Mains Sense -/

theorem lawful_setMains {s : State} {n : LineId} {m : MainsLine}
    (h : TablesInRange s → mainsOk (s.mainsLine n) → mainsOk m) : Lawful s (s.setMains n m) := by
  refine { Lawful.refl s with mains := fun hs hm k => ?_ }
  rw [setMains_mainsLine]
  split
  · exact h hs (hm n)
  · exact hm k

theorem mainsOk_sense {m : MainsLine} {sense : SenseState} (hm : mainsOk m)
    (h : ∀ t ∈ debounceTimer sense, 1 ≤ t ∧ t ≤ 60) : mainsOk { m with sense := sense } := by
  obtain ⟨-, hx, hh⟩ := hm
  exact ⟨h, hx, hh⟩

/-- An edge starts the debounce with its setting, or leaves what runs (R122). -/
theorem debounce_edge {sense : SenseState} {d : Nat} (present : Bool) (hd : 1 ≤ d ∧ d ≤ 60)
    (h : ∀ t ∈ debounceTimer sense, 1 ≤ t ∧ t ≤ 60) : ∀ t ∈ debounceTimer (sense.edge present d), 1 ≤ t ∧ t ≤ 60 := by
  cases sense <;> cases present <;> simp_all [SenseState.edge, debounceTimer]

theorem debounce_range {s : State} (hs : TablesInRange s) : 1 ≤ s.settings.debounce ∧ s.settings.debounce ≤ 60 := by
  obtain ⟨-, -, -, ⟨-, -, -, -, ⟨hlow, hhigh⟩, -⟩, -⟩ := hs
  exact ⟨Nat.le_trans (by decide) hlow, hhigh⟩

theorem holdOff_range {s : State} (hs : TablesInRange s) : s.settings.holdOff ≤ 1440 := by
  obtain ⟨-, -, -, ⟨-, -, -, -, -, h, -⟩, -⟩ := hs
  exact h

theorem lawful_senseChange (s : State) (n : LineId) (present : Bool) : Lawful s (s.senseChange n present) :=
  lawful_setMains fun hs hm => mainsOk_sense hm (debounce_edge present (debounce_range hs) hm.1)

theorem lawful_debouncedLoss (s : State) (n : LineId) : Lawful s (s.debouncedLoss n) := by
  unfold State.debouncedLoss
  split
  · have hatLoss : mainsOk MainsLine.atLoss := by simp [mainsOk, MainsLine.atLoss, debounceTimer]
    exact (((lawful_setMains fun _ _ => hatLoss).trans (lawful_forEntries (fun i t =>
      lawful_of_calm (tame_lossEntry n i t) (calm_testWork.lossEntry n i t)) _)).trans (lawful_raise _ _)).trans
      (lawful_settleLine _ n)
  · exact .refl s

theorem lawful_debouncedRestore (s : State) (n : LineId) : Lawful s (s.debouncedRestore n) := by
  unfold State.debouncedRestore
  dsimp only
  split
  · refine ((lawful_setMains fun hs hm => ?_).trans (lawful_forEntries (fun i t =>
      lawful_of_calm (tame_restoreEntry n _ i t) (calm_testWork.restoreEntry n _ i t)) _)).trans (lawful_raise _ _)
    obtain ⟨-, hx, -⟩ := hm
    exact ⟨by simp [debounceTimer], hx, holdOff_range hs⟩
  · exact .refl s

theorem lawful_holdOffEnd (s : State) (n : LineId) : Lawful s (s.holdOffEnd n) := by
  unfold State.holdOffEnd
  split
  · exact lawful_setMains fun _ ⟨hd, hx, _⟩ => ⟨hd, hx, Nat.zero_le _⟩
  · exact .refl s

theorem lawful_mainsSecond (n : LineId) (s : State) : Lawful s (s.mainsSecond n) := by
  unfold State.mainsSecond
  split
  · next t ht =>
    split
    · exact lawful_debouncedLoss s n
    · refine lawful_setMains fun _ hm => mainsOk_sense hm ?_
      have := hm.1 t (by simp [ht, debounceTimer])
      simp only [debounceTimer, Option.mem_some_iff, forall_eq']
      omega
  · next t ht =>
    split
    · exact lawful_debouncedRestore s n
    · refine lawful_setMains fun _ hm => mainsOk_sense hm ?_
      have := hm.1 t (by simp [ht, debounceTimer])
      simp only [debounceTimer, Option.mem_some_iff, forall_eq']
      omega
  · exact .refl s
  · exact .refl s

theorem mainsOk_minute {m : MainsLine} (h : mainsOk m) : mainsOk m.minute := by
  obtain ⟨hd, hx, hh⟩ := h
  refine ⟨hd, ?_, Nat.le_trans (Nat.sub_le _ _) hh⟩
  simp only [MainsLine.minute]
  split
  · exact Nat.min_le_left _ _
  · exact hx

theorem mainsMinute_line (s : State) (n : LineId) : s.mainsMinute.mainsLine n = (s.mainsLine n).minute := by
  simp [State.mainsMinute, State.mainsLine]

theorem lawful_mainsMinute (s : State) : Lawful s s.mainsMinute :=
  { Lawful.refl s with mains := fun _ hm n => by rw [mainsMinute_line]; exact mainsOk_minute (hm n) }

/-! ### The clock, the minute event and the tick -/

theorem lawful_clockMinute (s : State) : Lawful s s.clockMinute := by
  refine { Lawful.refl s with clock := ?_ }
  rintro ⟨hmax, hzero, -, hhand⟩
  refine ⟨?_, fun hv => ?_, Nat.zero_le _, hhand⟩
  · simp only [State.clockMinute, Bool.and_eq_true, decide_eq_true_eq]
    split <;> omega
  · have hv : s.clockValid = false := hv
    simp [State.clockMinute, hv, hzero]

theorem lawful_filterBlackouts (s : State) (p : Blackout → Bool) :
    Lawful s { s with blackouts := s.blackouts.filter p } := by
  refine { Lawful.refl s with blackouts := ?_ }
  rintro ⟨hlen, hord, hne, hok⟩
  exact ⟨Nat.le_trans (List.length_filter_le p _) hlen, hord.filter p, hne.filter p,
    fun b hb => hok b ((List.mem_filter.mp hb).1)⟩

theorem lawful_minuteTick (s : State) : Lawful s s.minuteTick :=
  ((((lawful_clockMinute s).trans (lawful_passMinute _)).trans (lawful_forEntries (fun i t =>
    lawful_of_calm (tame_minuteEntry i t) (calm_testWork.minuteEntry i t)) _)).trans (lawful_mainsMinute _)).trans
    ((lawful_filterBlackouts _ _).trans (lawful_settleLines _))

theorem lawful_remainingEnd (s : State) (i : EntryId) : Lawful s (s.remainingEnd i) := by
  unfold State.remainingEnd
  split
  · next t ht =>
    split
    · exact (lawful_of_calm (tame_remainingOut ht) (calm_testWork.remainingOut s i t)).trans (lawful_settleLine _ _)
    · exact .refl s
  · exact .refl s

theorem lawful_readyAgain {s : State} {i : EntryId} {st : EntryState} (h : (s.entry i).state = st) (hst : st ≠ .ready) :
    Lawful s (s.setEntryState i .ready) :=
  lawful_setEntryState (.inr (ne_ready_of_eq h hst)) (fun _ _ => trivial) fun h => (nomatch h)

theorem lawful_rechargeEnd (s : State) (i : EntryId) : Lawful s (s.rechargeEnd i) := by
  unfold State.rechargeEnd
  split
  · next left h =>
    split
    · exact lawful_readyAgain h (by simp)
    · exact .refl s
  · exact .refl s

theorem lawful_backoffEnd (s : State) (i : EntryId) : Lawful s (s.backoffEnd i) := by
  unfold State.backoffEnd
  split
  · next left h =>
    split
    · exact lawful_readyAgain h (by simp)
    · exact .refl s
  · exact .refl s

theorem lawful_pollEnd (s : State) (i : EntryId) : Lawful s (s.pollEnd i) :=
  lawful_of_calm (tame_pollEnd s i) (pollEnd_walk calm_testWork calm_lineWork s i)

theorem lawful_phaseSecond (s : State) : Lawful s s.phaseSecond := by
  unfold State.phaseSecond
  split
  · exact lawful_minuteTick s
  · refine { Lawful.refl s with clock := ?_ }
    rintro ⟨hmax, hzero, -, hhand⟩
    exact ⟨hmax, hzero, by simp only; omega, hhand⟩

theorem lawful_tick (s : State) : Lawful s s.tick :=
  ((((lawful_forEntries (fun i t =>
      lawful_of_calm (tame_pollSecond i t) (pollSecond_walk calm_testWork calm_lineWork i t)) s).trans
    (lawful_forLines lawful_mainsSecond _)).trans (lawful_forLines (fun n t =>
      lawful_of_calm (tame_retrySecond n t) (calm_retrySecond n t)) _)).trans (lawful_settleLines _)).trans
    (lawful_phaseSecond _)

end Sys2Proof.DeviceLaws
end

section
/-! The Lamp Path and the Trunk Port keep the laws of the device. -/

namespace Sys2Proof.DeviceLaws

open Sys2Proof Sys2Proof.Machine Sys2Proof.Machine.Safety Sys2Proof.Laws Sys2Proof.Walks Sys2Proof.LineOrder
  Sys2Proof.EntryOrder

/-! ### What the service of a line leaves alone -/

/-- The transmit queue, the event flags and the notice marks are as they were. -/
structure Quiet (s t : State) : Prop where
  tx     : t.tx = s.tx
  flags  : t.flags = s.flags
  notice : t.noticePending = s.noticePending ∧ t.noticeOwed = s.noticeOwed

theorem Quiet.refl (s : State) : Quiet s s := ⟨rfl, rfl, rfl, rfl⟩

theorem Quiet.trans {s t u : State} (h : Quiet s t) (k : Quiet t u) : Quiet s u :=
  ⟨k.tx.trans h.tx, k.flags.trans h.flags, k.notice.1.trans h.notice.1, k.notice.2.trans h.notice.2⟩

theorem quiet_captureOffer (s : State) (o : CaptureOrigin) (r : ReqName) (a : Argument) (i : EntryId) (n : LineId)
    (node : Nat) : Quiet s (s.captureOffer o r a i n node) := by
  unfold State.captureOffer
  split
  · exact ⟨rfl, rfl, rfl, rfl⟩
  · exact .refl s

theorem quiet_joinControl (s : State) (n : LineId) (k : ControlKind) (i : EntryId) (node : Nat) :
    Quiet s (s.joinControl n k i node) := (quiet_captureOffer s _ _ _ _ _ _).trans ⟨rfl, rfl, rfl, rfl⟩

theorem quiet_joinPass (s : State) (n : LineId) (r : PassRequest) : Quiet s (s.joinPass n r) :=
  (quiet_captureOffer s _ _ _ _ _ _).trans ⟨rfl, rfl, rfl, rfl⟩

theorem quiet_joinPoll (s : State) (i : EntryId) : Quiet s (s.joinPoll i) := by
  unfold State.joinPoll
  dsimp only
  split
  · exact .refl s
  · exact (quiet_captureOffer s _ _ _ _ _ _).trans ⟨rfl, rfl, rfl, rfl⟩

theorem quiet_markStartSent (s : State) (i : EntryId) (r : ReqName) : Quiet s (s.markStartSent i r) := by
  unfold State.markStartSent
  split
  · exact ⟨rfl, rfl, rfl, rfl⟩
  · exact .refl s

theorem quiet_beginExchange (s : State) (n : LineId) (c : Client) (w : Work) (node : Nat) :
    Quiet s (s.beginExchange n c w node) :=
  Quiet.trans (t := s.setLine n _) ⟨rfl, rfl, rfl, rfl⟩ (quiet_markStartSent _ _ _)

theorem quiet_grantTo (s : State) (n : LineId) (c : Client) : Quiet s (s.grantTo n c) := by
  have htake (l : LineEngine) (w : Work) (node : Nat) : Quiet s ((s.setLine n l).beginExchange n c w node) :=
    Quiet.trans (t := s.setLine n l) ⟨rfl, rfl, rfl, rfl⟩ (quiet_beginExchange _ _ _ _ _)
  unfold State.grantTo
  dsimp only
  split
  · split
    · exact htake _ _ _
    · exact .refl s
  · split
    · exact htake _ _ _
    · exact .refl s
  · split
    · exact htake _ _ _
    · exact .refl s

theorem quiet_lineWork : LineWork Quiet where
  refl := Quiet.refl
  trans := Quiet.trans
  joinControl := fun s n k i node _ => quiet_joinControl s n k i node
  grantTo := fun s n c _ => quiet_grantTo s n c

/-! ### Policing (R104, R160) -/

theorem startLimits_none {s : State} {e : Entry} {checked : Bool} :
    s.startLimits e checked = none ↔ (checked = true → s.quotaOk e.group = true) ∧ s.lineActive e.line < 12 := by
  unfold State.startLimits
  simp [ite_eq_of_ne]

theorem active_of_startCheck {s : State} {e : Entry} {override : Bool} (h : s.startCheck e override = none) :
    s.lineActive e.line < 12 := by
  unfold State.startCheck at h
  split at h
  · exact (startLimits_none.mp h).2
  · exact (startLimits_none.mp h).2
  · exact (startLimits_none.mp h).2
  · split at h
    · exact (startLimits_none.mp h).2
    · cases h
  all_goals cases h

/-- A request is accepted for the entry it names, on a line with room, and a start only below the active limit. -/
theorem police_accept {s : State} {i j : EntryId} {name m : ReqName} {override : Bool}
    (h : s.police i name override = .accept j m) :
    j = i ∧ m = name ∧ (s.line (s.entry i).line).passFull = false ∧
      (name.isStart = true → s.lineActive (s.entry i).line < 12) := by
  unfold State.police at h
  dsimp only at h
  split at h
  · cases h
  split at h
  · cases h
  split at h
  · cases h
  next hstart =>
    split at h
    · cases h
    split at h
    · cases h
    next hfull =>
      split at h
      · cases h
      cases h
      refine ⟨rfl, rfl, by simpa using hfull, fun hs => ?_⟩
      unfold State.startPolice at hstart
      rw [if_pos hs] at hstart
      exact active_of_startCheck hstart

/-- An accepted request is for an in-use entry, on a line with room, and a start only below the active limit. -/
theorem lampOutcome_accept {s : State} {f : Frame} {i : EntryId} {name : ReqName}
    (h : s.lampOutcome f = .accept i name) :
    (s.entry i).inUse = true ∧ (s.line (s.entry i).line).passFull = false ∧
      (name.isStart = true → s.lineActive (s.entry i).line < 12) := by
  unfold State.lampOutcome at h
  split at h
  · split at h <;> cases h
  next j hj =>
    split at h
    · cases h
    split at h
    · obtain ⟨rfl, rfl, hfull, hstart⟩ := police_accept h
      exact ⟨(findCln_some hj).1, hfull, hstart⟩
    · cases h

/-! ### Acceptance -/

theorem lawful_entryAccepted {s : State} {i : EntryId} {name : ReqName} (hin : (s.entry i).inUse = true)
    (hstart : name.isStart = true → s.lineActive (s.entry i).line < 12) : Lawful s (s.entryAccepted i name) := by
  cases name with
  | startFunction => exact lawful_toPending _ _ hin (hstart rfl)
  | startDuration => exact lawful_toPending _ _ hin (hstart rfl)
  | stopTest =>
    change Lawful s (s.stopAccepted i)
    unfold State.stopAccepted
    split
    · next t ht =>
      have hu : (s.entry i).state.test = some t := by rw [ht]; rfl
      exact lawful_of_calm (tame_toEnding hu fun _ h => h) (calm_testWork.toEnding s i _)
    · next t ht =>
      have hu : (s.entry i).state.test = some t := by rw [ht]; rfl
      exact lawful_of_calm (tame_setTest hu rfl fun _ h => h) (calm_testWork.setEntryState s i _)
    all_goals exact .refl s
  | _ => exact .refl s

theorem passInFlight_le (l : LineEngine) : passInFlight l ≤ 1 := by
  unfold passInFlight
  split
  · exact Nat.le.refl
  · exact Nat.zero_le 1

theorem orderly_joinPass {s : State} {n : LineId} (r : PassRequest) (h : (s.line n).passFull = false) :
    Orderly n 0 0 s (s.joinPass n r) := by
  refine (calm_captureOffer s .headend r.name r.arg r.entry n r.node n 0).trans (orderly_setLine ?_)
  rw [line_congr (captureOffer_lines s .headend r.name r.arg r.entry n r.node)]
  have hroom : (s.line n).pass.length + (s.line n).backlog.length < 8 := by
    simpa [LineEngine.passFull] using h
  have hfl := passInFlight_le (s.line n)
  have hsame (p : List PassRequest) : passInFlight { s.line n with pass := p } = passInFlight (s.line n) := rfl
  refine ⟨?_, Nat.le_max_left _ _, fun _ => ?_, fun f hf => .inl hf, id, id⟩
  · simp only [List.length_append, List.length_singleton]
    omega
  · simp only [load, hsame, List.length_append, List.length_singleton]
    omega

/-- Acceptance changes of a line only its control queue and its polls before the request joins it. -/
theorem passFull_of_sideWork {s t : State} (h : SideWork s t) (n : LineId) :
    (t.line n).passFull = (s.line n).passFull := by
  obtain ⟨hp, hb, -⟩ := h.kept n
  simp only [LineEngine.passFull, hp, hb]

theorem lawful_lampAccept {s : State} {f : Frame} {i : EntryId} {name : ReqName} (hin : (s.entry i).inUse = true)
    (hfull : (s.line (s.entry i).line).passFull = false)
    (hstart : name.isStart = true → s.lineActive (s.entry i).line < 12) : Lawful s (s.lampAccept f i name) := by
  have hside := sideWork_testWork.entryAccepted s i name
  refine ((lawful_entryAccepted hin hstart).trans (lawful_of_orderly (tame_of_entries (kept_joinPass _ _ _) ?_)
    (orderly_joinPass _ ((passFull_of_sideWork hside _).trans hfull)))).trans (lawful_settleLine _ _)
  exact joinPass_entries _ _ _

/-! ### Cancelling (R107) -/

theorem length_filter_split {α : Type} (p : α → Bool) (l : List α) :
    l.length = (l.filter p).length + (l.filter fun a => !p a).length := by
  induction l with
  | nil => rfl
  | cons a l ih =>
    cases h : p a with
    | true =>
      simp only [List.filter_cons, h, if_true, Bool.not_true, Bool.false_eq_true, if_false, List.length_cons, ih]
      omega
    | false =>
      simp only [List.filter_cons, h, if_true, Bool.not_false, Bool.false_eq_true, if_false, List.length_cons, ih]
      omega

theorem orderly_filterPass (s : State) (n : LineId) (p : PassRequest → Bool) :
    Orderly n 0 ((s.line n).pass.filter p).length s
      (s.setLine n { s.line n with pass := (s.line n).pass.filter fun r => !p r }) := by
  have hsplit := length_filter_split p (s.line n).pass
  refine orderly_setLine ⟨Nat.le_trans (List.length_filter_le _ _) (Nat.le_max_left _ _),
    Nat.le_max_left _ _, fun h => ?_,
    fun f hf => .inl hf, id, id⟩
  simp only [load, passInFlight] at h ⊢
  omega

theorem orderly_cancelPassStart (s : State) (n : LineId) (i : EntryId) : Orderly n 0 0 s (s.cancelPassStart n i) :=
  ((orderly_filterPass s n (PassRequest.isStartFor i)).trans
    (orderly_foldl (fun a t r => orderly_joinBacklog t n a (passAnswer_isNotice t r _ _)) _ _)).trans
    (calm_captureEndAll _ _ (answerFits_outcome _) n 0)

theorem tame_foldl {α : Type} {f : State → α → State} (h : ∀ s a, Tame s (f s a)) (l : List α) (s : State) :
    Tame s (l.foldl f s) := foldl_walk Tame.refl Tame.trans h l s

theorem tame_cancelPassStart (s : State) (n : LineId) (i : EntryId) : Tame s (s.cancelPassStart n i) :=
  ((tame_setLine (by rfl)).trans (tame_foldl (fun t _ => tame_joinBacklog t n _) _ _)).trans
    (tame_captureEndAll _ _ _)

theorem lawful_cancelStart (s : State) (n : LineId) (i : EntryId) (o : Origin) : Lawful s (s.cancelStart n i o) := by
  cases o with
  | scheduler =>
    exact lawful_of_calm (tame_removeControl s n _ _) (calm_removeControl s n _ (answerFits_outcome _))
  | headend => exact lawful_of_orderly (tame_cancelPassStart s n i) (orderly_cancelPassStart s n i)

/-- Answers that join a backlog leave the entries and the transmit queue. -/
theorem joinBacklogs_kept (n : LineId) (f : State → PassRequest → Frame) (l : List PassRequest) (s : State) :
    (l.foldl (fun t r => t.joinBacklog n (f t r)) s).entries = s.entries ∧
      (l.foldl (fun t r => t.joinBacklog n (f t r)) s).tx = s.tx := by
  induction l generalizing s with
  | nil => exact ⟨rfl, rfl⟩
  | cons r rest ih => exact ih (s.joinBacklog n (f s r))

theorem holds_cancelStart (s : State) (n : LineId) (i : EntryId) (o : Origin) : Holds s (s.cancelStart n i o) := by
  cases o with
  | scheduler => exact holds_removeControl s n _ _
  | headend =>
    refine Holds.trans ?_ (holds_captureEndAll _ _ _)
    exact holds_of_eq (joinBacklogs_kept n (fun t r => t.passAnswer r .cancelled []) _ _).1

theorem cancelStart_tx (s : State) (n : LineId) (i : EntryId) (o : Origin) : (s.cancelStart n i o).tx = s.tx := by
  cases o with
  | scheduler => exact captureEndAll_tx _ _ _
  | headend => exact (captureEndAll_tx _ _ _).trans (joinBacklogs_kept n (fun t r => t.passAnswer r .cancelled []) _ _).2

theorem heldAs_state {e e' : Entry} (h : HeldAs e e') : e'.state = e.state := by
  rcases h with rfl | ⟨-, rfl⟩ <;> rfl

theorem lawful_lampCancel (s : State) (i : EntryId) : Lawful s (s.lampCancel i) := by
  unfold State.lampCancel
  split
  · next t ht =>
    refine ((lawful_cancelStart s _ i t.origin).trans (lawful_readyAgain (st := .pending t) ?_ (by simp))).trans
      (lawful_settleLine _ _)
    rw [heldAs_state (holds_cancelStart s _ i t.origin i), ht]
  · exact .refl s

theorem lampCancel_tx (s : State) (i : EntryId) : (s.lampCancel i).tx = s.tx := by
  unfold State.lampCancel
  split
  · next t ht => exact ((quiet_lineWork.settleLine _ _).tx).trans (cancelStart_tx s _ i t.origin)
  · rfl

/-! ### Taking a request (R158) -/

theorem length_eraseP_le {α : Type} (p : α → Bool) (l : List α) : (l.eraseP p).length ≤ l.length :=
  (List.eraseP_sublist ..).length_le

/-- Taking a request places at most one answer. -/
theorem placed_lampTakeFrame (s : State) (f : Frame) : Placed s (s.lampTakeFrame f) := by
  have htaken : Lawful s { s with rx := s.rx.eraseP Frame.isLamp, lampWaiting := false } :=
    lawful_rx false fun h => Nat.le_trans (length_eraseP_le _ _) h
  unfold State.lampTakeFrame State.lampPerform
  split
  · exact htaken.placed
  · exact htaken.place Nat.le.refl (placed_pushTx _ rfl)
  · next i hi =>
    exact htaken.place Nat.le.refl ((lawful_lampCancel _ i).place
      (Nat.le_of_eq (by rw [lampCancel_tx])) (placed_pushTx _ rfl))
  · next i name ho =>
    obtain ⟨hin, hfull, hstart⟩ := lampOutcome_accept ho
    exact (htaken.trans (lawful_lampAccept hin hfull hstart)).placed

/-- An outcome that is no immediate answer places nothing. -/
theorem lawful_lampTakeFrame {s : State} {f : Frame}
    (h : (s.lampOutcome f).immediate = true → s.tx.length < 16) : Lawful s (s.lampTakeFrame f) := by
  have htaken : Lawful s { s with rx := s.rx.eraseP Frame.isLamp, lampWaiting := false } :=
    lawful_rx false fun h => Nat.le_trans (length_eraseP_le _ _) h
  cases ho : s.lampOutcome f with
  | drop =>
    unfold State.lampTakeFrame
    rw [ho]
    exact htaken
  | accept i name =>
    obtain ⟨hin, hfull, hstart⟩ := lampOutcome_accept ho
    unfold State.lampTakeFrame
    rw [ho]
    exact htaken.trans (lawful_lampAccept hin hfull hstart)
  | answer code => exact (placed_lampTakeFrame s f).lawful (h (by rw [ho]; rfl))
  | cancel i => exact (placed_lampTakeFrame s f).lawful (h (by rw [ho]; rfl))

theorem lawful_lampTake (s : State) : Lawful s s.lampTake := by
  unfold State.lampTake
  split
  · exact .refl s
  · split
    · exact .refl s
    · split
      · exact lawful_rx true id
      · next hnow =>
        refine lawful_lampTakeFrame fun himm => txFull_false.mp ?_
        simpa [himm] using hnow

theorem placed_lampGranted (s : State) : Placed s s.lampGranted := by
  unfold State.lampGranted
  split
  · exact (lawful_rx false id).placed
  · exact placed_lampTakeFrame s _

/-! ### The Trunk Port -/

theorem lawful_frameArrival (s : State) (f : TrunkFrame) : Lawful s (s.frameArrival f) := by
  unfold State.frameArrival State.joinRx
  split
  · split
    · split
      · exact lawful_raise s _
      · refine lawful_rx s.lampWaiting fun _ => ?_
        rw [List.length_append, List.length_singleton]
        omega
    · exact .refl s
  · exact .refl s

/-- The granted waiter places its frame, if it has one. -/
theorem placed_serve {s : State} {w : Waiter} (h : s.waits w = true) : Placed s (s.serve w) := by
  cases w with
  | lampPath => exact placed_lampGranted s
  | management => exact placed_placeMgmt s
  | backlog n => exact placed_placeBacklog s n
  | eventUnit => exact placed_buildNotice h

theorem placed_grantPlace (s : State) : Placed s s.grantPlace := by
  unfold State.grantPlace
  split
  · next w hw =>
    have hwaits : s.waits w = true := List.find?_some hw
    have hrot : Lawful s { s with rotation := w } := { Lawful.refl s with }
    exact hrot.place Nat.le.refl (placed_serve (by cases w <;> exact hwaits))
  · exact (Lawful.refl s).placed

theorem placed_grantPlaces (s : State) : Placed s s.grantPlaces := by
  have hfirst := placed_grantPlace s
  unfold State.grantPlaces
  dsimp only
  split
  · exact hfirst
  · next hroom =>
    have hsecond := (placed_grantPlace s.grantPlace).lawful (txFull_false.mp (by simpa using hroom))
    exact hfirst.andThen hsecond

/-- A frame has been sent, and the place it frees is granted (R155, R156). -/
theorem lawful_frameSent (s : State) : Lawful s s.frameSent := by
  unfold State.frameSent
  split
  · split
    · exact .refl s
    · next f rest htx =>
      have hsent := lawful_headSent htx
      dsimp only
      split
      · have htail : (State.noticeSent { s with tx := rest } f).tx = rest := by
          unfold State.noticeSent
          split <;> rfl
        have hplaced := placed_grantPlaces (State.noticeSent { s with tx := rest } f)
        refine { hsent.toLawfulButQueues.trans hplaced.toLawfulButQueues with
          queues := fun q => hplaced.queues ?_ (hsent.queues q) }
        obtain ⟨-, hlen, -⟩ := q
        rw [htx, List.length_cons] at hlen
        rw [htail]
        omega
      · exact hsent
  · exact .refl s

end Sys2Proof.DeviceLaws
end

section
/-! The record rules of the eight tables keep the laws of the device (R14 to R19, R24, R25, R44, R48, R49, R111, R115,
R145, R173). -/

namespace Sys2Proof.DeviceLaws

open Sys2Proof Sys2Proof.Machine Sys2Proof.Machine.Safety Sys2Proof.Laws Sys2Proof.Walks Sys2Proof.LineOrder
  Sys2Proof.EntryOrder

/-! ### MAP records (R14 to R19) -/

theorem clamp_range {lo hi v : Nat} (h : lo ≤ hi) : lo ≤ clamp lo hi v ∧ clamp lo hi v ≤ hi :=
  ⟨Nat.le_max_left _ _, Nat.max_le.mpr ⟨h, Nat.min_le_right _ _⟩⟩

theorem roundRated_ok (v : Nat) : 30 ≤ roundRated v ∧ roundRated v ≤ 240 ∧ roundRated v % 30 = 0 := by
  unfold roundRated
  split
  · decide
  · split
    · decide
    · omega

theorem entryOk_free : entryOk Entry.free := by simp [entryOk, Entry.free, stateOk]

theorem writeIdentity_eq (r : MapRecord) (e : Entry) : r.writeIdentity e =
    { e with
      cln := if r.identity then r.cln else e.cln, line := if r.identity then lineOf r.line else e.line
      node := if r.identity then r.node else e.node } := by
  unfold MapRecord.writeIdentity
  split <;> rfl

theorem writeMembership_eq (r : MapRecord) (e : Entry) : r.writeMembership e =
    { e with group := if r.membership then groupIdOf r.group else e.group } := by
  unfold MapRecord.writeMembership
  split <;> rfl

theorem writeRatings_eq (r : MapRecord) (e : Entry) : r.writeRatings e =
    { e with
      battery := if r.ratings then batteryOf r.battery else e.battery
      rated := if r.ratings then roundRated r.rated else e.rated } := by
  unfold MapRecord.writeRatings
  split <;> rfl

theorem writeFlags_eq (r : MapRecord) (e : Entry) : r.writeFlags e =
    { e with
      locked := if r.flags then r.locked else e.locked, barred := if r.flags then r.barred else e.barred
      held := if r.flags then r.held else e.held } := by
  unfold MapRecord.writeFlags
  split <;> rfl

theorem writeHistory_eq (r : MapRecord) (e : Entry) : r.writeHistory e =
    { e with
      addedAt := if r.history then r.addedAt else e.addedAt
      lastFunctionEnd := if r.history then r.lastFunctionEnd else e.lastFunctionEnd
      lastDurationEnd := if r.history then r.lastDurationEnd else e.lastDurationEnd
      overdueFunction := if r.history then false else e.overdueFunction
      overdueDuration := if r.history then false else e.overdueDuration } := by
  unfold MapRecord.writeHistory
  split <;> rfl

/-- The identity a change leaves: the record's when the identity group is written, else the entry's. -/
theorem changed_identity (r : MapRecord) (e : Entry) :
    (r.changed e).cln = (if r.identity then r.cln else e.cln) ∧
      (r.changed e).line = (if r.identity then lineOf r.line else e.line) ∧
      (r.changed e).node = if r.identity then r.node else e.node := by
  simp only [MapRecord.changed, writeHistory_eq, writeFlags_eq, writeRatings_eq, writeMembership_eq,
    writeIdentity_eq, and_self]

/-- What a change leaves alone, and the rated minutes it leaves (R16). -/
theorem changed_rest (r : MapRecord) (e : Entry) :
    (r.changed e).inUse = e.inUse ∧ (r.changed e).state = e.state ∧ (r.changed e).attempts = e.attempts ∧
      (r.changed e).rated = if r.ratings then roundRated r.rated else e.rated := by
  simp only [MapRecord.changed, writeHistory_eq, writeFlags_eq, writeRatings_eq, writeMembership_eq,
    writeIdentity_eq, and_self]

theorem mapCheck_none {s : State} {i : EntryId} {r : MapRecord} :
    s.mapCheck i r = none ↔ r.valueBad (s.entry i) = false ∧ r.busy (s.entry i) = false ∧ s.duplicates i r = false := by
  unfold State.mapCheck
  simp [ite_eq_of_ne]

/-- An identity that is written, with in use yes, has its values in range (R15, check 2). -/
theorem identity_range {r : MapRecord} {e : Entry} (h : r.valueBad e = false) (hid : r.identity = true)
    (hin : r.inUse = true) : (1 ≤ r.cln ∧ r.cln ≤ 999999) ∧ (1 ≤ r.node ∧ r.node ≤ 40) ∧ r.line < 6 := by
  simp [MapRecord.valueBad, MapRecord.identityBad, hid, hin] at h
  omega

/-- What a taken record makes of an entry: it is freed, changed, made, or as it was. -/
theorem applied_cases (r : MapRecord) (e : Entry) :
    (e.inUse = true ∧ r.removes e = true ∧ r.applied e = .free) ∨
      (e.inUse = true ∧ r.removes e = false ∧ r.applied e = r.changed e) ∨
      (e.inUse = false ∧ r.creates e = true ∧ r.applied e = r.created) ∨
      (e.inUse = false ∧ r.creates e = false ∧ r.applied e = e) := by
  unfold MapRecord.applied
  cases e.inUse <;> cases r.removes e <;> cases r.creates e <;> simp

/-- An in-use entry that a record has dealt with holds the identity it had, or that of the record. -/
theorem applied_identity {r : MapRecord} {e : Entry} (h : (r.applied e).inUse = true) :
    (e.inUse = true ∧ (r.applied e).cln = e.cln ∧ (r.applied e).line = e.line ∧ (r.applied e).node = e.node) ∨
      (r.identity = true ∧ r.inUse = true ∧ (r.applied e).cln = r.cln ∧ (r.applied e).line = lineOf r.line ∧
        (r.applied e).node = r.node) := by
  rcases applied_cases r e with ⟨-, -, ha⟩ | ⟨hin, hrem, ha⟩ | ⟨-, hcr, ha⟩ | ⟨hin, -, ha⟩
  · rw [ha] at h; cases h
  · obtain ⟨hc, hl, hn⟩ := changed_identity r e
    rw [ha, hc, hl, hn]
    cases hid : r.identity with
    | false => exact .inl ⟨hin, rfl, rfl, rfl⟩
    | true =>
      have hu : r.inUse = true := by simpa [MapRecord.removes, hin, hid] using hrem
      exact .inr ⟨rfl, hu, rfl, rfl, rfl⟩
  · have hsel : r.identity = true ∧ r.inUse = true := by
      simp only [MapRecord.creates, Bool.and_eq_true] at hcr
      exact ⟨hcr.1.2, hcr.2⟩
    rw [ha]
    exact .inr ⟨hsel.1, hsel.2, rfl, rfl, rfl⟩
  · rw [ha, hin] at h; cases h

theorem entryOk_applied {r : MapRecord} {e : Entry} (hv : r.valueBad e = false) (he : entryOk e) :
    entryOk (r.applied e) := by
  have hrange : (r.applied e).inUse = true →
      (1 ≤ (r.applied e).cln ∧ (r.applied e).cln ≤ 999999) ∧ (1 ≤ (r.applied e).node ∧ (r.applied e).node ≤ 40) := by
    intro h
    rcases applied_identity h with ⟨hin, hc, -, hn⟩ | ⟨hid, hu, hc, -, hn⟩
    · rw [hc, hn]
      obtain ⟨-, -, -, hr, -⟩ := he
      exact hr hin
    · rw [hc, hn]
      obtain ⟨hcln, hnode, -⟩ := identity_range hv hid hu
      exact ⟨hcln, hnode⟩
  rcases applied_cases r e with ⟨-, -, ha⟩ | ⟨hin, -, ha⟩ | ⟨-, -, ha⟩ | ⟨-, -, ha⟩
  · rw [ha]; exact entryOk_free
  · rw [ha] at hrange ⊢
    obtain ⟨hu, hs, hat, hrated⟩ := changed_rest r e
    obtain ⟨hr, hst, ha7, -, -⟩ := he
    refine ⟨?_, by rw [hs]; exact hst, by rw [hat]; exact ha7, hrange,
      fun hn => absurd (hu.trans hin) (by rw [hn]; exact Bool.noConfusion)⟩
    rw [hrated]
    split
    · exact roundRated_ok _
    · exact hr
  · rw [ha] at hrange ⊢
    exact ⟨roundRated_ok _, trivial, Nat.zero_le _, hrange, fun h => (nomatch h)⟩
  · rw [ha]; exact he

/-- A record leaves an entry under test on its line, and brings none under test. -/
theorem applied_underTest {r : MapRecord} {e : Entry} {n : LineId} (hb : r.busy e = false)
    (h : ((r.applied e).inUse && (r.applied e).state.underTest && (r.applied e).line == n) = true) :
    (e.inUse && e.state.underTest && e.line == n) = true := by
  rcases applied_cases r e with ⟨-, -, ha⟩ | ⟨hin, hrem, ha⟩ | ⟨-, -, ha⟩ | ⟨-, -, ha⟩
  · rw [ha] at h; cases h
  · obtain ⟨hu, hs, -, -⟩ := changed_rest r e
    obtain ⟨-, hl, -⟩ := changed_identity r e
    rw [ha, hu, hs] at h
    have htest : e.state.underTest = true := by
      simp only [Bool.and_eq_true] at h
      exact h.1.2
    have hline : (r.changed e).line = e.line := by
      rw [hl]
      split
      · next hid =>
        have hmove : r.moves e = false := by
          simp only [MapRecord.busy, htest, Bool.true_and, Bool.or_eq_false_iff] at hb
          exact hb.1.1.1.2
        have hu : r.inUse = true := by simpa [MapRecord.removes, hin, hid] using hrem
        have hsame : r.line = e.line.val := by
          simp only [MapRecord.moves, hin, hid, hu, Bool.true_and, Bool.or_eq_false_iff] at hmove
          simpa using hmove.1
        unfold lineOf
        split
        · exact Fin.ext hsame
        · exact absurd e.line.isLt (by omega)
      · rfl
    rwa [hline] at h
  · rw [ha] at h; cases h
  · rwa [ha] at h

theorem mapUnique_applied {s : State} {i : EntryId} {r : MapRecord} (hv : r.valueBad (s.entry i) = false)
    (hd : s.duplicates i r = false) (h : MapUnique s) : MapUnique (s.setEntry i (r.applied (s.entry i))) := by
  have hnew : ∀ j, j ≠ i → (s.entry j).inUse = true → (r.applied (s.entry i)).inUse = true →
      (r.applied (s.entry i)).cln ≠ (s.entry j).cln ∧
        ((r.applied (s.entry i)).line ≠ (s.entry j).line ∨ (r.applied (s.entry i)).node ≠ (s.entry j).node) := by
    intro j hji hj hi
    rcases applied_identity hi with ⟨hin, hc, hl, hn⟩ | ⟨hid, hu, hc, hl, hn⟩
    · rw [hc, hl, hn]; exact h i j hji.symm hin hj
    · obtain ⟨-, -, hline⟩ := identity_range hv hid hu
      have hclash : (s.entry j).clashes r = false := by
        simp only [State.duplicates, hid, hu, Bool.true_and, List.any_eq_false, Bool.and_eq_true, not_and] at hd
        simpa using hd j (List.mem_finRange j) (by simpa using hji)
      simp only [Entry.clashes, hj, Bool.true_and, Bool.or_eq_false_iff, beq_eq_false_iff_ne, ne_eq,
        Bool.and_eq_false_iff] at hclash
      obtain ⟨hcln, hplace⟩ := hclash
      rw [hc, hl, hn]
      refine ⟨fun e => hcln e.symm, hplace.imp (fun hne e => hne ?_) fun hne e => hne e.symm⟩
      rw [← e]
      simp [lineOf, hline]
  intro a b hab ha hb
  rw [setEntry_entry] at ha hb
  rw [setEntry_entry, setEntry_entry]
  split at ha <;> split at hb
  · next hia hib => exact absurd (hia.symm.trans hib) hab
  · next hia hib =>
    rw [if_pos hia, if_neg hib]
    exact hnew b (fun e => hib e.symm) hb ha
  · next hia hib =>
    rw [if_neg hia, if_pos hib]
    obtain ⟨hc, hp⟩ := hnew a (fun e => hia e.symm) ha hb
    exact ⟨hc.symm, hp.imp Ne.symm Ne.symm⟩
  · next hia hib =>
    rw [if_neg hia, if_neg hib]
    exact h a b hab ha hb

/-- An entry written: what the laws of the map ask. -/
theorem lawful_mapEntry {s : State} {i : EntryId} {e : Entry}
    (hok : TablesInRange s → entryOk (s.entry i) → entryOk e)
    (hunique : MapUnique s → MapUnique (s.setEntry i e))
    (hactive : ∀ n, (e.inUse && e.state.underTest && e.line == n) = true →
      ((s.entry i).inUse && (s.entry i).state.underTest && (s.entry i).line == n) = true) :
    Lawful s (s.setEntry i e) := by
  refine { Lawful.refl s with entries := fun hs he j => ?_, unique := hunique, active := fun ha n => ?_ }
  · rw [setEntry_entry]
    split
    · exact hok hs (he i)
    · exact he j
  · refine Nat.le_trans (count_le fun j hj => ?_) (ha n)
    rw [setEntry_entry] at hj
    split at hj
    · next hij => exact hij ▸ hactive n hj
    · exact hj

theorem lawful_takeMap {s t : State} {r : MapRecord} (h : s.takeMap r = .ok t) : Lawful s t := by
  unfold State.takeMap at h
  split at h
  · dsimp only at h
    split at h
    · cases h
    · next hi hnone =>
      cases h
      obtain ⟨hv, hb, hd⟩ := mapCheck_none.mp hnone
      exact lawful_mapEntry (fun _ he => entryOk_applied hv he) (mapUnique_applied hv hd)
        fun n hn => applied_underTest hb hn
  · cases h

/-! ### The tables of settings -/

theorem groupOk_settings (r : GroupRecord) (c : Fin 8) : groupOk (r.settings c) :=
  ⟨Nat.min_le_right _ _, clamp_range (by decide), clamp_range (by decide),
    Nat.le_trans (Nat.min_le_left _ _) (Nat.min_le_right _ _), Nat.min_le_right _ _, clamp_range (by decide),
    Nat.le_trans (Nat.min_le_left _ _) (Nat.min_le_right _ _), Nat.min_le_right _ _,
    clamp_range (by decide)⟩

theorem lineSettingsOk_settings (r : LineRecord) : lineSettingsOk r.settings :=
  ⟨clamp_range (by decide), clamp_range (by decide), clamp_range (by decide)⟩

theorem lawful_takeGroup {s t : State} {r : GroupRecord} (h : s.takeGroup r = .ok t) : Lawful s t := by
  unfold State.takeGroup at h
  split at h
  · split at h
    · next hi hc =>
      cases h
      refine { Lawful.refl s with tables := ?_ }
      rintro ⟨hg, hl, hcr, hs, hp⟩
      refine ⟨fun g => ?_, hl, hcr, hs, hp⟩
      simp only [State.group, Fin.getElem_fin, Vector.getElem_set]
      split
      · exact groupOk_settings r _
      · exact hg g
    · cases h
  · cases h

theorem lawful_takeCriteria {s t : State} {c v : Nat} (h : s.takeCriteria c v = .ok t) : Lawful s t := by
  unfold State.takeCriteria at h
  split at h
  · next hc =>
    cases h
    refine { Lawful.refl s with tables := ?_ }
    rintro ⟨hg, hl, hcr, hs, hp⟩
    refine ⟨hg, hl, fun k => ?_, hs, hp⟩
    simp only [Fin.getElem_fin, Vector.getElem_set]
    split
    · unfold clampCriteria
      split
      · exact .inl rfl
      · exact .inr (clamp_range (by decide))
    · exact hcr k
  · cases h

theorem lawful_takeLine {s t : State} {r : LineRecord} (h : s.takeLine r = .ok t) : Lawful s t := by
  unfold State.takeLine at h
  split at h
  · next hn =>
    cases h
    have o : Orderly ⟨r.line, hn⟩ 0 0 s _ :=
      calm_setLine (s := s) (n := ⟨r.line, hn⟩) (l := { s.line ⟨r.line, hn⟩ with settings := r.settings })
        (lineCalm_of_eq rfl (Nat.le_max_left _ _) rfl rfl Nat.le.refl id) ⟨r.line, hn⟩ 0
    refine { Lawful.refl s with
      tables := ?_, notice := o.notice, supply := o.supply, polls := o.polls, queues := o.queues }
    rintro ⟨hg, hl, hrest⟩
    exact ⟨hg, forall_setLine (p := fun l => lineSettingsOk l.settings) (fun _ => lineSettingsOk_settings r)
      (fun _ => id) hl, hrest⟩
  · cases h

theorem lawful_takeCalendar {s t : State} {r : CalendarRecord} (h : s.takeCalendar r = .ok t) : Lawful s t := by
  unfold State.takeCalendar at h
  split at h
  · cases h; exact { Lawful.refl s with }
  · cases h

theorem lawful_takePolicy {s t : State} {k : Nat} {halt : Bool} (h : s.takePolicy k halt = .ok t) : Lawful s t := by
  unfold State.takePolicy at h
  split at h
  · cases h; exact { Lawful.refl s with }
  · cases h

/-- The settings of the bridge, in their ranges. -/
theorem lawful_settings {s : State} {b : BridgeSettings} (h : TablesInRange s → settingsOk b) :
    Lawful s { s with settings := b } := by
  refine { Lawful.refl s with tables := fun hs => ?_ }
  have hb := h hs
  obtain ⟨hg, hl, hc, -, hp⟩ := hs
  exact ⟨hg, hl, hc, hb, hp⟩

theorem settingsOk_settings {r : BridgeRecord} (m : Fin 4) (h : ¬r.lightingType.toNat < 0x0600) :
    settingsOk (r.settings m) :=
  ⟨clamp_range (by decide), clamp_range (by decide), clamp_range (by decide), clamp_range (by decide),
    clamp_range (by decide), Nat.min_le_right _ _, Nat.le_of_not_lt h⟩

theorem lawful_endIfUnarmed (s : State) : Lawful s s.endIfUnarmed := by
  unfold State.endIfUnarmed
  split
  · exact .refl s
  · exact lawful_endPass s

/-- The notice marks cleared. -/
theorem lawful_noMarks (s : State) : Lawful s { s with noticePending := false, noticeOwed := false } := by
  refine { Lawful.refl s with notice := ?_ }
  rintro ⟨h1, -, -, hb, hh⟩
  exact ⟨h1, fun h => (nomatch h), fun h => (nomatch h), hb, hh⟩

theorem lawful_dropNotice (s : State) : Lawful s s.dropNotice := by
  unfold State.dropNotice
  split
  · exact lawful_noMarks s
  · exact .refl s

theorem lawful_takeBridge {s t : State} {r : BridgeRecord} (h : s.takeBridge r = .ok t) : Lawful s t := by
  unfold State.takeBridge at h
  split at h
  · cases h
  · split at h
    · cases h
    · next htype =>
      split at h
      · cases h
        exact ((lawful_settings fun _ => settingsOk_settings _ htype).trans (lawful_endIfUnarmed _)).trans
          (lawful_dropNotice _)
      · cases h

/-! ### The blackout list (R47 to R49) -/

theorem placeBlackout_perm (b : Blackout) (l : List Blackout) : (placeBlackout b l).Perm (b :: l) := by
  obtain ⟨pre, post, rfl, hplaced, -⟩ := placeBlackout_split b l
  rw [hplaced]
  exact List.perm_middle

theorem before_iff (a b : Blackout) : a.before b = true ↔ a.start < b.start ∨ a.start = b.start ∧ a.stop ≤ b.stop := by
  simp [Blackout.before]

theorem before_trans {a b c : Blackout} (h : a.before b = true) (k : b.before c = true) : a.before c = true := by
  rw [before_iff] at *
  omega

theorem before_of_not {a b : Blackout} (h : a.before b = false) : b.before a = true := by
  have hn : ¬a.before b = true := by simp [h]
  rw [before_iff] at *
  omega

/-- An insertion keeps the order of the list (R48). -/
theorem placeBlackout_pairwise {b : Blackout} {l : List Blackout} (h : l.Pairwise fun a b => a.before b = true) :
    (placeBlackout b l).Pairwise fun a b => a.before b = true := by
  obtain ⟨pre, post, rfl, hplaced, hpre, hpost⟩ := placeBlackout_split b l
  rw [hplaced, List.pairwise_append, List.pairwise_cons]
  obtain ⟨hp, hq, hpq⟩ := List.pairwise_append.mp h
  have hafter : ∀ y ∈ post, b.before y = true := by
    cases post with
    | nil => exact fun _ h => (nomatch h)
    | cons z rest =>
      have hz := before_of_not (hpost z (by simp))
      intro y hy
      rcases List.mem_cons.mp hy with rfl | hy
      · exact hz
      · exact before_trans hz ((List.pairwise_cons.mp hq).1 y hy)
  refine ⟨hp, ⟨hafter, hq⟩, fun x hx y hy => ?_⟩
  rcases List.mem_cons.mp hy with rfl | hy
  · exact hpre x hx
  · exact hpq x hx y hy

theorem lawful_takeBlackout {s t : State} {b : Blackout} (h : s.takeBlackout b = .ok t) : Lawful s t := by
  unfold State.takeBlackout at h
  split at h
  · unfold State.blackoutRemove at h
    split at h
    · cases h
    · cases h; exact lawful_filterBlackouts s _
  · next hclasses =>
    unfold State.blackoutInsert at h
    split at h
    · cases h
    · next hspan =>
      split at h
      · cases h
      · next hnew =>
        split at h
        · cases h
        · next hroom =>
          cases h
          have hperm := placeBlackout_perm b s.blackouts
          have hnew : b ∉ s.blackouts := by simpa using hnew
          refine { Lawful.refl s with blackouts := ?_ }
          rintro ⟨-, hord, hne, hok⟩
          refine ⟨?_, placeBlackout_pairwise hord, (hperm.pairwise_iff fun h => h.symm).mpr
            (List.pairwise_cons.mpr ⟨fun x hx e => hnew (e ▸ hx), hne⟩), fun x hx => ?_⟩
          · simp only [hperm.length_eq, List.length_cons]
            omega
          · rcases List.mem_cons.mp (hperm.mem_iff.mp hx) with rfl | hx
            · exact ⟨Nat.lt_of_not_le hspan, hclasses⟩
            · exact hok x hx

/-! ### Any record -/

/-- A record taken by the rules of its table keeps every law. -/
theorem lawful_takeRecord {s t : State} {r : TableRecord} (h : s.takeRecord r = .ok t) : Lawful s t := by
  cases r with
  | map r => exact lawful_takeMap h
  | group r => exact lawful_takeGroup h
  | calendar r => exact lawful_takeCalendar h
  | blackout b => exact lawful_takeBlackout h
  | criteria c v => exact lawful_takeCriteria h
  | policy k halt => exact lawful_takePolicy h
  | line r => exact lawful_takeLine h
  | bridge r => exact lawful_takeBridge h

end Sys2Proof.DeviceLaws
end

section
/-! The Management Engine, the Image Store and power-up keep the laws of the device, and with them every command and
every step. -/

namespace Sys2Proof.DeviceLaws

open Sys2Proof Sys2Proof.Machine Sys2Proof.Machine.Safety Sys2Proof.Laws Sys2Proof.Walks Sys2Proof.LineOrder
  Sys2Proof.EntryOrder

/-! ### Taking a request (R168) -/

theorem beNat_lt (bs : List Byte) : beNat bs < 256 ^ bs.length := by
  have hfold (bs : List Byte) (a : Nat) :
      bs.foldl (fun a b => a * 256 + b.toNat) a < (a + 1) * 256 ^ bs.length := by
    induction bs generalizing a with
    | nil => simp
    | cons b rest ih =>
      have hb : b.toNat < 256 := b.isLt
      calc (b :: rest).foldl (fun a b => a * 256 + b.toNat) a
          < (a * 256 + b.toNat + 1) * 256 ^ rest.length := ih _
        _ ≤ (a + 1) * 256 * 256 ^ rest.length := Nat.mul_le_mul_right _ (by omega)
        _ = (a + 1) * 256 ^ (b :: rest).length := by
          rw [List.length_cons, Nat.pow_succ', Nat.mul_assoc]
  simpa [beNat] using hfold bs 0

theorem natAt_lt (b : List Byte) (off len : Nat) : natAt b off len < 256 ^ len :=
  Nat.lt_of_lt_of_le (beNat_lt _) (Nat.pow_le_pow_right (by decide) (List.length_take_le _ _))

theorem parseMgmt_setClock {b : List Byte} {k : Nat} (h : parseMgmt b = some (.setClock k)) : k ≤ maxMinute := by
  unfold parseMgmt at h
  split at h
  any_goals cases h
  have := natAt_lt b 1 4
  simp only [maxMinute]
  omega

theorem lawful_mgmtTake (s : State) : Lawful s s.mgmtTake := by
  unfold State.mgmtTake
  split
  · split
    · next f hf =>
      have htaken : Lawful s { s with rx := s.rx.eraseP Frame.isMgmt } :=
        lawful_rx s.lampWaiting fun h => Nat.le_trans (length_eraseP_le _ _) h
      unfold State.mgmtTakeFrame
      dsimp only
      split
      · next r hr =>
        refine htaken.trans (lawful_mgmt (fun _ _ h => nomatch h) fun _ who k h => ?_)
        cases h
        exact parseMgmt_setClock hr
      · exact htaken.trans (lawful_finish _ _ _ _ _)
    · exact .refl s
  · exact .refl s

/-- A job that is no SET_CLOCK is in hand. -/
theorem lawful_job (s : State) (who : Requester) {job : MgmtJob} (h : ∀ k, job ≠ .request (.setClock k)) :
    Lawful s { s with mgmt := .working who job } :=
  lawful_mgmt (fun _ _ h => nomatch h) fun _ who' k e => by cases e; exact absurd rfl (h k)

/-! ### The table walks (R171, R172) -/

theorem lawful_readStep (s : State) : Lawful s s.readStep := by
  unfold State.readStep
  split
  · unfold State.readBegin
    split
    · exact lawful_finish _ _ _ _ _
    · split
      · exact lawful_finish _ _ _ _ _
      · split
        · exact lawful_finish _ _ _ _ _
        · split
          · exact lawful_finish _ _ _ _ _
          · exact lawful_job s _ fun _ h => nomatch h
  · unfold State.readOne
    split
    · exact lawful_finish _ _ _ _ _
    · exact lawful_job s _ fun _ h => nomatch h
  · exact .refl s

theorem lawful_writeBegin (s : State) (who : Requester) (table : Byte) (records : List TableRecord) :
    Lawful s (s.writeBegin who table records) := by
  unfold State.writeBegin
  split
  · exact lawful_finish _ _ _ _ _
  · split
    · exact lawful_finish _ _ _ _ _
    · split
      · exact lawful_finish _ _ _ _ _
      · exact lawful_job s _ fun _ h => nomatch h

theorem lawful_writeStep (s : State) (mine : TableRecord → Bool) : Lawful s (s.writeStep mine) := by
  unfold State.writeStep
  split
  · split
    · unfold State.writeOne
      split
      · exact lawful_finish _ _ _ _ _
      · next t ht =>
        have htaken := lawful_takeRecord ht
        split
        · exact htaken.trans (lawful_finish _ _ _ _ _)
        · exact htaken.trans (lawful_job t _ fun _ h => nomatch h)
    · exact .refl s
  · exact .refl s

/-! ### Requests performed in one step -/

theorem lawful_setClock {s : State} {who : Requester} {k : Nat} (h : s.mgmt = .working who (.request (.setClock k))) :
    Lawful s (s.setClock who k) := by
  unfold State.setClock
  split
  · exact lawful_finish _ _ _ _ _
  · have hload : Lawful s (s.loadClock k) := by
      refine { Lawful.refl s with clock := ?_ }
      rintro ⟨-, -, -, hhand⟩
      have hk : k ≤ maxMinute := hhand k (by simp [clockInHand, h])
      exact ⟨hk, fun h => (nomatch h), Nat.zero_le _, hhand⟩
    exact hload.trans (lawful_finish _ _ _ _ _)

theorem lawful_clearFlags (s : State) (set : BitVec 14) : Lawful s (s.clearFlags set) := { Lawful.refl s with }

theorem lawful_readStatus (s : State) (who : Requester) (take : Bool) : Lawful s (s.readStatus who take) := by
  unfold State.readStatus
  split
  · exact (lawful_clearFlags s _).trans (lawful_finish _ _ _ _ _)
  · exact lawful_finish _ _ _ _ _

theorem lawful_schedOn (s : State) (who : Requester) : Lawful s (s.schedOn who) := by
  refine (lawful_settings fun hs => ?_).trans (lawful_finish _ _ _ _ _)
  obtain ⟨-, -, -, h, -⟩ := hs
  exact h

theorem lawful_schedOff (s : State) (who : Requester) : Lawful s (s.schedOff who) := by
  refine ((lawful_settings fun hs => ?_).trans (lawful_endPass _)).trans (lawful_finish _ _ _ _ _)
  obtain ⟨-, -, -, h, -⟩ := hs
  exact h

/-- A control operation on one entry, which acts on an in-use entry only (R175). -/
theorem lawful_onEntry {s : State} {act : EntryId → MgmtCode × State} (who : Requester) (request index : Nat)
    (h : ∀ i, (s.entry i).inUse = true → Lawful s (act i).2) : Lawful s (s.onEntry who request index act) := by
  unfold State.onEntry
  split
  · split
    · next hi hin => exact (h _ hin).trans (lawful_finish _ _ _ _ _)
    · exact lawful_finish _ _ _ _ _
  · exact lawful_finish _ _ _ _ _

theorem lawful_clearFault (s : State) (who : Requester) (index : Nat) : Lawful s (s.clearFault who index) := by
  refine lawful_onEntry who 18 index fun i hin => ?_
  unfold State.clearFaultOf
  split
  · exact lawful_setEntry (sameIdentity_refl _)
      (entryTame_of (sameIdentity_refl _) (.inl hin) (fun _ _ => trivial) (fun _ _ => Nat.zero_le _)
        fun h => (nomatch h))
  · exact .refl s

/-- A mark of an in-use entry written. -/
theorem lawful_mark {s : State} {i : EntryId} (hin : (s.entry i).inUse = true) (held touched : Bool) :
    Lawful s (s.setEntry i { s.entry i with held := held, touched := touched }) :=
  lawful_setEntry (sameIdentity_refl _) (entryTame_same (sameIdentity_refl _) (.inl hin) rfl rfl)

theorem lawful_setHold (s : State) (who : Requester) (index : Nat) : Lawful s (s.setHold who index) :=
  lawful_onEntry who 19 index fun i hin => lawful_mark hin true (s.entry i).touched

theorem lawful_clearHold (s : State) (who : Requester) (index : Nat) : Lawful s (s.clearHold who index) :=
  lawful_onEntry who 20 index fun i hin => lawful_mark hin false (s.entry i).touched

theorem clearAllTouched_entry (s : State) (i : EntryId) :
    s.clearAllTouched.entry i = { s.entry i with touched := false } := by
  simp [State.clearAllTouched, State.entry]

theorem entryOk_untouched {e : Entry} (h : entryOk e) : entryOk { e with touched := false } := by
  obtain ⟨hr, hs, ha, hu, hf⟩ := h
  exact ⟨hr, hs, ha, hu, fun hn => by rw [hf hn]; rfl⟩

/-- Entries written anew: what the laws of the map ask. -/
theorem lawful_entries {s : State} {v : Vector Entry 240}
    (hok : EntriesInRange s → EntriesInRange { s with entries := v })
    (hunique : MapUnique s → MapUnique { s with entries := v })
    (hactive : ActiveLaw s → ActiveLaw { s with entries := v }) : Lawful s { s with entries := v } :=
  { Lawful.refl s with entries := fun _ => hok, unique := hunique, active := hactive }

theorem lawful_clearAllTouched (s : State) : Lawful s s.clearAllTouched := by
  have hok (he : EntriesInRange s) : EntriesInRange s.clearAllTouched := fun i => by
    rw [clearAllTouched_entry]; exact entryOk_untouched (he i)
  have hmap : SameMap s s.clearAllTouched := fun i => by rw [clearAllTouched_entry]; exact sameIdentity_refl _
  have hactive (n : LineId) : s.clearAllTouched.lineActive n ≤ s.lineActive n := by
    unfold State.lineActive
    exact count_le fun i hi => by simpa only [clearAllTouched_entry] using hi
  exact lawful_entries hok (mapUnique_of_sameMap hmap) fun ha n => Nat.le_trans (hactive n) (ha n)

theorem lawful_clearTouched (s : State) (who : Requester) (index : Nat) : Lawful s (s.clearTouched who index) := by
  unfold State.clearTouched
  split
  · exact (lawful_clearAllTouched s).trans (lawful_finish _ _ _ _ _)
  · exact lawful_onEntry who 21 index fun i hin => lawful_mark hin (s.entry i).held false

theorem lawful_capture {s : State} {c : Capture} (h : CaptureLaw s → CaptureLaw { s with capture := c }) :
    Lawful s { s with capture := c } := { Lawful.refl s with capture := h }

theorem lawful_armCapture (s : State) (who : Requester) (target : Nat) (mode action : Byte) :
    Lawful s (s.armCapture who target mode action) := by
  unfold State.armCapture
  split
  · next c hc =>
    refine (lawful_capture fun _ => ?_).trans (lawful_finish _ _ _ _ _)
    unfold Capture.arm at hc
    split at hc
    · split at hc
      · cases hc
      · next hrange =>
        cases hc
        exact ⟨by simp only; omega, fun _ h => (nomatch h), trivial⟩
    · cases hc
  · exact lawful_finish _ _ _ _ _

theorem captureLaw_disarm {s : State} (h : CaptureLaw s) : CaptureLaw { s with capture := s.capture.disarm } := by
  obtain ⟨ht, -, -⟩ := id h
  unfold Capture.disarm
  split
  · exact h
  · exact ⟨ht, fun _ h => (nomatch h), trivial⟩
  · exact ⟨ht, fun _ h => (nomatch h), trivial⟩

theorem lawful_disarmCapture (s : State) (who : Requester) : Lawful s (s.disarmCapture who) :=
  (lawful_capture captureLaw_disarm).trans (lawful_finish _ _ _ _ _)

theorem lawful_lineAbort (s : State) (who : Requester) (line : Nat) : Lawful s (s.lineAbort who line) := by
  unfold State.lineAbort
  split
  · exact (lawful_of_orderly (tame_abortLine s _) (orderly_abortLine s _)).trans (lawful_finish _ _ _ _ _)
  · exact lawful_finish _ _ _ _ _

theorem lawful_lineReset (s : State) (who : Requester) (line : Nat) : Lawful s (s.lineReset who line) := by
  unfold State.lineReset
  split
  · exact (lawful_of_orderly (tame_resetLine s _) (orderly_resetLine s _)).trans (lawful_finish _ _ _ _ _)
  · exact lawful_finish _ _ _ _ _

/-- What BRIDGE_RESET does outside the entries and the Line Engines, on a state whose transmit queue it cuts down. -/
theorem lawful_resetRest (s : State) {tx : List Frame} (htx : tx.length ≤ 1) (k : Nat) :
    Lawful s { s with
      passTimer := 0, passState := .idle, plan := [], rx := [], tx := tx, rotation := .lampPath, lampWaiting := false
      capture := { Capture.initial with nextMark := k }, noticePending := false, noticeOwed := false } := by
  refine { Lawful.refl s with queues := ?_, tables := ?_, plan := ?_, notice := ?_, capture := ?_ }
  · rintro ⟨hg, hl, hc, hs, -⟩
    exact ⟨hg, hl, hc, hs, Nat.zero_le _⟩
  · exact fun _ _ => ⟨Nat.zero_le _, .nil, .nil, fun _ h => (nomatch h), fun _ => rfl, fun _ h => (nomatch h)⟩
  · rintro ⟨-, -, -, hb, hh⟩
    exact ⟨Nat.le_trans List.countP_le_length htx, fun h => (nomatch h), fun h => (nomatch h), hb, hh⟩
  · exact fun _ => ⟨(by decide : 1 ≤ Capture.initial.target ∧ Capture.initial.target ≤ 999999),
      fun _ h => (nomatch h), trivial⟩
  · rintro ⟨-, -, hq⟩
    exact ⟨Nat.zero_le _, Nat.le_trans htx (by decide), hq⟩

theorem lawful_resetBlocks (s : State) : Lawful s s.resetBlocks := by
  refine ((lawful_forEntries (fun i t => lawful_of_calm (tame_resetEntry i t) (calm_testWork.resetEntry i t)) s).trans
    (lawful_forLines (fun n t => lawful_of_calm (tame_resetEngine n t) (calm_resetEngine n t)) _)).trans
    (lawful_resetRest _ ?_ s.capture.nextMark)
  split
  · exact (List.length_take_le _ _)
  · exact Nat.zero_le _

theorem lawful_bridgeReset (s : State) (who : Requester) : Lawful s (s.bridgeReset who) :=
  (lawful_resetBlocks s).trans (lawful_finish _ _ _ _ _)

theorem lawful_saveImage (s : State) (who : Requester) : Lawful s (s.saveImage who) := by
  unfold State.saveImage
  split
  · exact lawful_finish _ _ _ _ _
  · have hsave : Lawful s { s with save := some .erasing, flash := [] } := { Lawful.refl s with }
    exact hsave.trans (lawful_finish _ _ _ _ _)

theorem lawful_clearEvents (s : State) (who : Requester) (set : BitVec 14) : Lawful s (s.clearEvents who set) :=
  (lawful_clearFlags s set).trans (lawful_finish _ _ _ _ _)

/-! ### The course of a save (R178, R179) -/

theorem lawful_save (s : State) (save : Option SavePhase) (flash : List Byte) :
    Lawful s { s with save := save, flash := flash } := { Lawful.refl s with }

theorem lawful_saveRead (s : State) : Lawful s s.saveRead := by
  unfold State.saveRead
  split
  · exact lawful_save s _ _
  · exact .refl s

theorem lawful_saveEnd (s : State) (f : EventFlag) : Lawful s (s.saveEnd f) :=
  (lawful_save s none s.flash).trans (lawful_raise _ f)

theorem lawful_flashDone (s : State) (readBack : List Byte) : Lawful s (s.flashDone readBack) := by
  unfold State.flashDone
  split
  · exact lawful_save s _ _
  · exact lawful_save s _ _
  · exact lawful_save s _ _
  · exact lawful_save s _ _
  · exact lawful_save s _ _
  · exact lawful_saveEnd s _
  · exact .refl s
  · exact .refl s

theorem lawful_flashTimeout (s : State) : Lawful s s.flashTimeout := by
  unfold State.flashTimeout
  split
  · exact lawful_saveEnd s _
  · exact lawful_saveEnd s _
  · exact lawful_saveEnd s _
  · exact lawful_saveEnd s _
  · exact .refl s
  · exact .refl s
  · exact .refl s

/-! ### The load (R21, R180) -/

theorem imageExtra_attempts {b : List Byte} {x : ImageExtra} (h : imageExtra b = some x) : x.attempts ≤ 7 := by
  unfold imageExtra at h
  split at h
  · split at h
    · next hok => cases h; exact hok.2
    · cases h
  · cases h

theorem lawful_addExtra (s : State) (index : Nat) {x : ImageExtra} (hx : x.attempts ≤ 7) :
    Lawful s (s.addExtra index x) := by
  unfold State.addExtra
  split
  · split
    · next hi hin =>
      refine lawful_setEntry (sameIdentity_refl _) (entryTame_of (sameIdentity_refl _) (.inl hin) (fun _ _ => ?_)
        (fun _ _ => hx) fun h => ?_)
      · simp only [Entry.withExtra]
        split <;> trivial
      · simp only [Entry.withExtra] at h
        split at h <;> cases h
    · exact .refl s
  · exact .refl s

theorem lawful_loadRecord {s t : State} {table : Table} {b : List Byte} (h : s.loadRecord table b = some t) :
    Lawful s t := by
  unfold State.loadRecord at h
  split at h
  · unfold State.loadMap at h
    split at h
    · next ht hx =>
      cases h
      exact (lawful_takeMap ht).trans (lawful_addExtra _ _ (imageExtra_attempts hx))
    · cases h
  · split at h
    · next ht => cases h; exact lawful_takeRecord ht
    · cases h

theorem lawful_loadRecords {table : Table} {k : Nat} {b rest : List Byte} {s t : State}
    (h : loadRecords table k b s = some (t, rest)) : Lawful s t := by
  induction k generalizing b s with
  | zero => cases h; exact .refl _
  | succ k ih =>
    unfold loadRecords at h
    split at h
    · cases h
    · split at h
      · next u hu => exact (lawful_loadRecord hu).trans (ih h)
      · cases h

theorem lawful_loadTable {table : Table} {b rest : List Byte} {s t : State} (h : loadTable table b s = some (t, rest)) :
    Lawful s t := by
  unfold loadTable at h
  split at h
  · split at h
    · exact lawful_loadRecords h
    · cases h
  · cases h

theorem lawful_loadTables {tables : List Table} {b : List Byte} {s t : State} (h : loadTables tables b s = some t) :
    Lawful s t := by
  induction tables generalizing b s with
  | nil =>
    unfold loadTables at h
    split at h
    · cases h; exact .refl _
    · cases h
  | cons table rest ih =>
    unfold loadTables at h
    split at h
    · next u left hu => exact (lawful_loadTable hu).trans (ih h)
    · cases h

theorem lawful_loadImage {s t : State} (h : s.loadImage = some t) : Lawful s t := by
  unfold State.loadImage at h
  split at h
  · split at h
    · split at h
      · obtain ⟨u, hu, rfl⟩ := Option.map_eq_some_iff.mp h
        have hmark : Lawful u u.markRows := { Lawful.refl u with }
        exact (lawful_loadTables hu).trans hmark
      · cases h
    · cases h
  · cases h

/-! ### Power-up (R180, R182, R132, R151) -/

theorem lawful_openPort (s : State) (bad : Bool) : Lawful s (s.openPort bad) := by
  have hrise (u : State) (f : EventFlag) : Lawful u (u.noteRise f) :=
    lawful_of_calm (tame_of_entries (kept_noteRise u f) (noteRise_entries u f)) (calm_noteRise u f)
  unfold State.openPort
  split
  · have hopen : Lawful s { s with portOpen := true } := { Lawful.refl s with }
    dsimp only
    split
    · exact (hopen.trans (hrise _ _)).trans (hrise _ _)
    · exact hopen.trans (hrise _ _)
  · exact .refl s

theorem lawful_readMains (s : State) (present : Vector Bool 6) : Lawful s (s.readMains present) := by
  refine { Lawful.refl s with mains := fun hs _ n => ?_ }
  have hline : (s.readMains present).mainsLine n =
      { MainsLine.initial with sense := SenseState.present.edge present[n] s.settings.debounce } := by
    simp [State.readMains, State.mainsLine]
  have hinitial : mainsOk MainsLine.initial := by simp [mainsOk, MainsLine.initial, debounceTimer]
  rw [hline]
  exact mainsOk_sense hinitial (debounce_edge _ (debounce_range hs) hinitial.1)

/-- Every law of the device. -/
structure Sound (s : State) : Prop where
  queues    : QueuesBounded s
  clock     : ClockLaw s
  tables    : TablesInRange s
  entries   : EntriesInRange s
  unique    : MapUnique s
  plan      : PlanLaw s
  notice    : NoticeLaw s
  supply    : SupplyLaw s
  polls     : PollsLaw s
  active    : ActiveLaw s
  mains     : MainsLaw s
  capture   : CaptureLaw s
  blackouts : BlackoutLaw s

theorem Lawful.sound {s t : State} (h : Lawful s t) (k : Sound s) : Sound t where
  queues := h.queues k.queues
  clock := h.clock k.clock
  tables := h.tables k.tables
  entries := h.entries k.tables k.entries
  unique := h.unique k.unique
  plan := h.plan k.tables k.plan
  notice := h.notice k.notice
  supply := h.supply k.supply
  polls := h.polls k.polls
  active := h.active k.active
  mains := h.mains k.tables k.mains
  capture := h.capture k.capture
  blackouts := h.blackouts k.blackouts

theorem Sound.lawful {s t : State} (h : Sound t) : Lawful s t where
  queues := fun _ => h.queues
  clock := fun _ => h.clock
  tables := fun _ => h.tables
  entries := fun _ _ => h.entries
  unique := fun _ => h.unique
  plan := fun _ _ => h.plan
  notice := fun _ => h.notice
  supply := fun _ => h.supply
  polls := fun _ => h.polls
  active := fun _ => h.active
  mains := fun _ _ => h.mains
  capture := fun _ => h.capture
  blackouts := fun _ => h.blackouts

theorem reset_entry (i : EntryId) : State.reset.entry i = .free := by simp [State.reset, State.entry]

theorem reset_line (n : LineId) : State.reset.line n = .initial := by simp [State.reset, State.line]

theorem reset_mainsLine (n : LineId) : State.reset.mainsLine n = .initial := by simp [State.reset, State.mainsLine]

theorem reset_group (g : Fin 32) : State.reset.group g = .default := by simp [State.reset, State.group]

theorem sound_reset : Sound .reset where
  queues := ⟨by decide, by decide, fun n => by rw [reset_line]; decide⟩
  clock := ⟨by decide, fun _ => rfl, by decide, fun _ h => (nomatch h)⟩
  tables := by
    refine ⟨fun g => ?_, fun n => ?_, fun c => .inl ?_, ?_, by decide⟩
    · rw [reset_group]; simp [groupOk, GroupSettings.default]
    · rw [reset_line]; simp [lineSettingsOk, LineEngine.initial, LineSettings.default]
    · simp [State.reset]
    · simp [settingsOk, State.reset, BridgeSettings.default]
  entries := fun i => by rw [reset_entry]; exact entryOk_free
  unique := fun i _ _ hi => by rw [reset_entry] at hi; cases hi
  plan := ⟨by decide, .nil, .nil, fun _ h => (nomatch h), fun _ => rfl, fun _ h => (nomatch h)⟩
  notice := ⟨by decide, fun _ => rfl, fun h => (nomatch h), fun n f h => (by rw [reset_line] at h; cases h),
    fun _ h => (nomatch h)⟩
  supply := fun n => by rw [reset_line]; simp [supplyOk, LineEngine.initial, Engine.isDown]
  polls := fun n => by rw [reset_line]; exact .nil
  active := fun n => by
    have hnone : State.reset.lineActive n = 0 := by
      refine (count_eq_countP _ _).trans (List.countP_eq_zero.mpr fun i _ => ?_)
      rw [reset_entry]
      simp [Entry.free]
    omega
  mains := fun n => by rw [reset_mainsLine]; simp [mainsOk, MainsLine.initial, debounceTimer]
  capture := ⟨by decide, fun _ h => (nomatch h), trivial⟩
  blackouts := ⟨by decide, .nil, .nil, fun _ h => (nomatch h)⟩

theorem sound_atPowerUp (s : State) (straps : Byte) : Sound (s.atPowerUp straps) := by
  have h : Lawful .reset (s.atPowerUp straps) := { Lawful.refl .reset with }
  exact h.sound sound_reset

theorem sound_powerUp (s : State) (straps : Byte) (flashAnswers : Bool) (present : Vector Bool 6) :
    Sound (s.powerUp straps flashAnswers present) := by
  have hstart := sound_atPowerUp s straps
  unfold State.powerUp
  split
  · next t ht =>
    have hload : Lawful (s.atPowerUp straps) t := by
      split at ht
      · exact lawful_loadImage ht
      · cases ht
    exact ((hload.trans (lawful_openPort _ _)).trans (lawful_readMains _ _)).sound hstart
  · have hflags : Lawful (s.atPowerUp straps)
        { s.atPowerUp straps with flags := EventFlag.clockNeeded.mask ||| EventFlag.imageBad.mask } :=
      { Lawful.refl (s.atPowerUp straps) with }
    exact ((hflags.trans (lawful_openPort _ _)).trans (lawful_readMains _ _)).sound hstart

end Sys2Proof.DeviceLaws
end

section
/-! Every command and every step keeps the laws of the device: the statements about them. -/

namespace Sys2Proof.DeviceLaws

open Sys2Proof Sys2Proof.Machine Sys2Proof.Machine.Safety Sys2Proof.Laws Sys2Proof.Walks Sys2Proof.LineOrder
  Sys2Proof.EntryOrder

theorem working_of_inHand {s : State} {who : Requester} {r : MgmtRequest} (h : s.inHand = some (who, r)) :
    s.mgmt = .working who (.request r) := by
  unfold State.inHand at h
  split at h
  · next hm => cases h; exact hm
  · cases h

theorem lawful_of_next {s a t : State} (h : Lawful s a)
    (e : (.next a : Host.Outcome State Fault Refusal) = .next t) : Lawful s t := Host.Outcome.next.inj e ▸ h

/-- The commands of the management requests: the request in hand is performed when it is theirs, and otherwise nothing
changes. -/
def isRequestCommand : Instr → Bool
  | .writeTable | .setClock | .readStatus | .schedOn | .schedOff | .clearFault | .setHold | .clearHold | .clearTouched
  | .armCapture | .disarmCapture | .lineAbort | .lineReset | .bridgeReset | .saveImage | .clearEvents => true
  | _ => false

theorem lawful_request {c : Instr} {s t : State} (hc : isRequestCommand c = true) (h : exec c s = .next t) :
    Lawful s t := by
  cases c with
  | writeTable =>
    dsimp only [exec, execWriteTable] at h
    split at h
    · exact lawful_of_next (lawful_writeBegin s _ _ _) h
    · exact lawful_of_next (.refl s) h
  | setClock =>
    dsimp only [exec, execSetClock] at h
    split at h
    · next hr => exact lawful_of_next (lawful_setClock (working_of_inHand hr)) h
    · exact lawful_of_next (.refl s) h
  | readStatus =>
    dsimp only [exec, execReadStatus] at h
    split at h
    · exact lawful_of_next (lawful_readStatus s _ _) h
    · exact lawful_of_next (.refl s) h
  | schedOn =>
    dsimp only [exec, execSchedOn] at h
    split at h
    · exact lawful_of_next (lawful_schedOn s _) h
    · exact lawful_of_next (.refl s) h
  | schedOff =>
    dsimp only [exec, execSchedOff] at h
    split at h
    · exact lawful_of_next (lawful_schedOff s _) h
    · exact lawful_of_next (.refl s) h
  | clearFault =>
    dsimp only [exec, execClearFault] at h
    split at h
    · exact lawful_of_next (lawful_clearFault s _ _) h
    · exact lawful_of_next (.refl s) h
  | setHold =>
    dsimp only [exec, execSetHold] at h
    split at h
    · exact lawful_of_next (lawful_setHold s _ _) h
    · exact lawful_of_next (.refl s) h
  | clearHold =>
    dsimp only [exec, execClearHold] at h
    split at h
    · exact lawful_of_next (lawful_clearHold s _ _) h
    · exact lawful_of_next (.refl s) h
  | clearTouched =>
    dsimp only [exec, execClearTouched] at h
    split at h
    · exact lawful_of_next (lawful_clearTouched s _ _) h
    · exact lawful_of_next (.refl s) h
  | armCapture =>
    dsimp only [exec, execArmCapture] at h
    split at h
    · exact lawful_of_next (lawful_armCapture s _ _ _ _) h
    · exact lawful_of_next (.refl s) h
  | disarmCapture =>
    dsimp only [exec, execDisarmCapture] at h
    split at h
    · exact lawful_of_next (lawful_disarmCapture s _) h
    · exact lawful_of_next (.refl s) h
  | lineAbort =>
    dsimp only [exec, execLineAbort] at h
    split at h
    · exact lawful_of_next (lawful_lineAbort s _ _) h
    · exact lawful_of_next (.refl s) h
  | lineReset =>
    dsimp only [exec, execLineReset] at h
    split at h
    · exact lawful_of_next (lawful_lineReset s _ _) h
    · exact lawful_of_next (.refl s) h
  | bridgeReset =>
    dsimp only [exec, execBridgeReset] at h
    split at h
    · exact lawful_of_next (lawful_bridgeReset s _) h
    · exact lawful_of_next (.refl s) h
  | saveImage =>
    dsimp only [exec, execSaveImage] at h
    split at h
    · exact lawful_of_next (lawful_saveImage s _) h
    · exact lawful_of_next (.refl s) h
  | clearEvents =>
    dsimp only [exec, execClearEvents] at h
    split at h
    · exact lawful_of_next (lawful_clearEvents s _ _) h
    · exact lawful_of_next (.refl s) h
  | _ => cases hc

/-- Every command keeps every law of the device. -/
theorem exec_lawful {c : Instr} {s t : State} (h : exec c s = .next t) : Lawful s t := by
  rcases hc : isRequestCommand c with _ | _
  · cases c with
    | powerUp straps flash mains => exact lawful_of_next ((sound_powerUp s straps flash mains).lawful) h
    | minuteEvent => exact lawful_of_next (lawful_minuteTick s) h
    | passTimerExpiry => exact lawful_of_next (lawful_passTimerEnd s) h
    | walkEntry => exact lawful_of_next (lawful_walkStep s) h
    | admission => exact lawful_of_next (lawful_admissionStep s) h
    | pollDue i => exact lawful_of_next (lawful_pollEnd s i) h
    | remainingMinutesOut i => exact lawful_of_next (lawful_remainingEnd s i) h
    | rechargeEnd i => exact lawful_of_next (lawful_rechargeEnd s i) h
    | backoffEnd i => exact lawful_of_next (lawful_backoffEnd s i) h
    | holdOffEnd n => exact lawful_of_next (lawful_holdOffEnd s n) h
    | mainsSenseChange n p => exact lawful_of_next (lawful_senseChange s n p) h
    | debouncedLoss n => exact lawful_of_next (lawful_debouncedLoss s n) h
    | debouncedRestore n => exact lawful_of_next (lawful_debouncedRestore s n) h
    | lineSupplyFault n => exact lawful_of_next (lawful_of_orderly (tame_supplyFault s n) (orderly_supplyFault s n)) h
    | supplyRetry n => exact lawful_of_next (lawful_of_calm (tame_supplyRetry s n) (calm_supplyRetry s n)) h
    | supplySenseRead n l => exact lawful_of_next (lawful_of_orderly (tame_senseRead s n l) (orderly_senseRead s n l)) h
    | requestSent n => exact lawful_of_next (lawful_of_calm (tame_requestSent s n) (calm_requestSent s n)) h
    | lineAnswerReceived n heard =>
      exact lawful_of_next (lawful_of_orderly (tame_answerHeard s n heard) (orderly_answerHeard s n heard)) h
    | replyWindowClose n cut =>
      exact lawful_of_next (lawful_of_orderly (tame_windowClose s n cut) (orderly_windowClose s n cut)) h
    | gapEnd n => exact lawful_of_next (lawful_of_calm (tame_gapEnd s n) (calm_gapEnd s n)) h
    | frameArrival f => exact lawful_of_next (lawful_frameArrival s f) h
    | frameSent => exact lawful_of_next (lawful_frameSent s) h
    | noticeBuild => exact lawful_of_next (lawful_noticeBuild s) h
    | backlogAnswerPlace n => exact lawful_of_next (lawful_backlogPlace s n) h
    | lampRequestTake => exact lawful_of_next (lawful_lampTake s) h
    | mgmtRequestTake => exact lawful_of_next (lawful_mgmtTake s) h
    | mgmtAnswerPlace => exact lawful_of_next (lawful_mgmtPlace s) h
    | readTable => exact lawful_of_next (lawful_readStep s) h
    | mapRecord => exact lawful_of_next (lawful_writeStep s _) h
    | groupRecord => exact lawful_of_next (lawful_writeStep s _) h
    | calendarRecord => exact lawful_of_next (lawful_writeStep s _) h
    | blackoutInsert => exact lawful_of_next (lawful_writeStep s _) h
    | blackoutRemove => exact lawful_of_next (lawful_writeStep s _) h
    | criteriaRecord => exact lawful_of_next (lawful_writeStep s _) h
    | policyRecord => exact lawful_of_next (lawful_writeStep s _) h
    | lineRecord => exact lawful_of_next (lawful_writeStep s _) h
    | bridgeRecord => exact lawful_of_next (lawful_writeStep s _) h
    | imageSaveRead => exact lawful_of_next (lawful_saveRead s) h
    | flashOpDone readBack => exact lawful_of_next (lawful_flashDone s readBack) h
    | flashOpTimeout => exact lawful_of_next (lawful_flashTimeout s) h
    | trunkLinkChange up => exact lawful_of_next (a := { s with linkUp := up }) { Lawful.refl s with } h
    | _ => cases hc
  · exact lawful_request hc h

/-- Every step keeps every law of the device. -/
theorem step_lawful {s t : State} (h : step s = .next t) : Lawful s t := by
  unfold step at h
  split at h
  · exact lawful_of_next (lawful_tick s) h
  · next c rest hp =>
    have hrest : Lawful s { s with pending := rest } := { Lawful.refl s with }
    exact hrest.trans (exec_lawful h)

/-! ### The statements -/

/-- Settles O51: the laws of the state after reset, one by one. -/
theorem lawsHoldAtReset : Obligations.LawsHoldAtReset :=
  have h := sound_reset
  ⟨h.queues, h.clock, h.tables, h.entries, h.unique, h.plan, h.notice, h.supply, h.polls, h.active, h.mains, h.capture,
    h.blackouts⟩

/-- Settles O52: a queue grows only where its bound is checked, and answers owed take the room of the requests they
answer. -/
theorem stepKeepsQueuesBounded : Obligations.StepKeepsQueuesBounded := fun _ _ hq h => (step_lawful h).queues hq

/-- Settles O53: every stored value is brought into its range, and SET_CLOCK carries 32 bits. -/
theorem stepKeepsClockAndTables : Obligations.StepKeepsClockAndTables :=
  fun _ _ h => ⟨(step_lawful h).clock, (step_lawful h).tables⟩

/-- Settles O54: every work on tests is tame (`Tame`), and a MAP record is checked before it is taken. -/
theorem stepKeepsEntriesInRange : Obligations.StepKeepsEntriesInRange :=
  fun _ _ hs he h => (step_lawful h).entries hs he

/-- Settles O55: only a MAP record gives an entry an identity, and it is refused where it would double one. -/
theorem stepKeepsMapUnique : Obligations.StepKeepsMapUnique := fun _ _ hu h => (step_lawful h).unique hu

/-- Settles O56: the walk inserts in order, a record for each index it reaches, and admission takes from the front. -/
theorem stepKeepsPlan : Obligations.StepKeepsPlan := fun _ _ hs hp h => (step_lawful h).plan hs hp

/-- Settles O57: a NOTICE is built only of a pending notice, and one is pending only while none is queued. -/
theorem stepKeepsOneNotice : Obligations.StepKeepsOneNotice := fun _ _ hn h => (step_lawful h).notice hn

/-- Settles O58: the supply is switched with its timer, and a PROBE joins the polls at its place. -/
theorem stepKeepsLines : Obligations.StepKeepsLines :=
  fun _ _ hs hp h => ⟨(step_lawful h).supply hs, (step_lawful h).polls hp⟩

/-- Settles O59: an entry comes under test only by a hand-off or an acceptance, which check the limit. -/
theorem stepKeepsActiveCount : Obligations.StepKeepsActiveCount := fun _ _ ha h => (step_lawful h).active ha

/-- Settles O60: the debounce starts with its setting, a capture is armed in range, and the blackout list is kept in
order. -/
theorem stepKeepsMainsCaptureAndBlackouts : Obligations.StepKeepsMainsCaptureAndBlackouts :=
  fun _ _ hs hm hc hb h =>
    ⟨(step_lawful h).mains hs hm, (step_lawful h).capture hc, (step_lawful h).blackouts hb⟩

end Sys2Proof.DeviceLaws
end

section
/-! The step, the state after reset, the clock and the calendar: short statements about single definitions. -/

namespace Sys2Proof.ClockAndCalendar

open Sys2Proof Sys2Proof.Machine Sys2Proof.Machine.Safety Sys2Proof.Laws Sys2Proof.DeviceLaws

/-! ### The step and the state after reset -/

/-- Settles O1: it is how a step is defined. -/
theorem stepRunsFrontCommand : Obligations.StepRunsFrontCommand := fun _ _ => rfl

/-- Settles O4: each value of the state after reset, read off its definition. -/
theorem resetValues : Obligations.ResetValues := by
  refine ⟨reset_entry, reset_group, ⟨rfl, rfl, rfl⟩, fun d => ?_, rfl, ⟨rfl, rfl, rfl⟩, fun c => ?_, rfl,
    reset_mainsLine, fun n => ?_, ⟨rfl, rfl, rfl, rfl, rfl⟩, ⟨rfl, rfl, rfl, rfl⟩, ⟨rfl, rfl⟩, fun f => ?_, rfl,
    ⟨rfl, rfl, rfl⟩⟩
  · simp [State.reset, CalendarRow.empty]
  · simp [State.reset]
  · rw [reset_line]; exact ⟨rfl, rfl, rfl, rfl, rfl, rfl, rfl, rfl, rfl⟩
  · cases f <;> decide

/-! ### The span test (R52, R53, R54) -/

/-- The mask of a half-hour is that of the weekday and slot of any of its minutes (R43). -/
theorem maskAt_halfHour (s : State) (m : Nat) (hd : weekday m < 7) (hk : slotOf m < 48) :
    s.maskAt (halfHour m) = s.rows[weekday m].masks[slotOf m] := by
  simp only [State.maskAt, CampusTime.halfHour_weekday, CampusTime.halfHour_mod_48]

/-- The half-hours a span touches are those of its minutes. -/
theorem slotsAdmit_iff (s : State) (t l : Nat) (c : Fin 8) (hl : 1 ≤ l) :
    s.slotsAdmit t l c = true ↔ ∀ m, t ≤ m → m < t + l → (s.maskAt (halfHour m)).getLsbD c = true := by
  simp only [State.slotsAdmit, List.all_eq_true, List.mem_range]
  constructor
  · intro h m htm hml
    have hk : halfHour t + (halfHour m - halfHour t) = halfHour m := by unfold halfHour; omega
    rw [← hk]
    exact h _ (by unfold halfHour; omega)
  · intro h k hk
    have hm : halfHour (max t (30 * (halfHour t + k))) = halfHour t + k := by unfold halfHour at *; omega
    rw [← hm]
    exact h _ (Nat.le_max_left _ _) (by unfold halfHour at *; omega)

/-- A blackout of the class blocks a span when it covers some minute of it (R54). -/
theorem blocks_false_iff {b : Blackout} {t l : Nat} (c : Fin 8) (hl : 1 ≤ l) (hb : b.start < b.stop) :
    b.blocks t l c = false ↔
      (b.classes.getLsbD c = true → ∀ m, t ≤ m → m < t + l → ¬(b.start ≤ m ∧ m < b.stop)) := by
  simp only [Blackout.blocks, Bool.and_eq_false_iff, decide_eq_false_iff_not]
  constructor
  · rintro ((hc | hs) | hs) hset m htm hml
    · rw [hc] at hset; cases hset
    · omega
    · omega
  · intro h
    rcases hc : b.classes.getLsbD c with _ | _
    · exact .inl (.inl rfl)
    · refine Classical.byContradiction fun hn => ?_
      have hm := h hc (max t b.start) (Nat.le_max_left _ _)
      omega

/-- Settles O9: half-hours become minutes by `slotsAdmit_iff`, blackouts by `blocks_false_iff`. -/
theorem spanTestByMinutes : Obligations.SpanTestByMinutes := by
  intro s t l c hl hblack
  have hslots : s.slotsAdmit t l c = true ↔ ∀ m, t ≤ m → m < t + l → ∀ (hd : weekday m < 7) (hk : slotOf m < 48),
      (s.rows[weekday m].masks[slotOf m]).getLsbD c = true := by
    rw [slotsAdmit_iff s t l c hl]
    refine forall_congr' fun m => forall_congr' fun _ => forall_congr' fun _ => ⟨fun h hd hk => ?_, fun h => ?_⟩
    · rwa [← maskAt_halfHour]
    · rw [maskAt_halfHour s m (CampusTime.weekday_lt m) (CampusTime.slotOf_lt m)]
      exact h _ _
  have hblocks : (s.blackouts.all fun b => !b.blocks t l c) = true ↔ ∀ b ∈ s.blackouts,
      b.classes.getLsbD c = true → ∀ m, t ≤ m → m < t + l → ¬(b.start ≤ m ∧ m < b.stop) := by
    simp only [List.all_eq_true, Bool.not_eq_true']
    exact forall_congr' fun b => forall_congr' fun hb => blocks_false_iff c hl (hblack b hb)
  unfold State.spanPermitted
  rw [Bool.and_eq_true, Bool.and_eq_true, decide_eq_true_eq, hslots, hblocks, and_assoc]

/-! ### Progress and score (R59, R60) -/

/-- Settles O10: a quotient by the window's width is compared through `Nat.le_div_iff_mul_le`. -/
theorem progressAndScore : Obligations.ProgressAndScore := by
  refine ⟨fun now opens w hw hle => ⟨?_, Nat.min_le_left _ _, ?_, fun h => ?_⟩, fun p w hp _ hw =>
    ⟨rfl, rfl, score_le (k := .function) hp hw, score_le (k := .duration) hp hw⟩⟩
  · simp [progressOf]
  · have hdiv : 1000 ≤ (now - opens) * 1000 / w ↔ 1000 * w ≤ (now - opens) * 1000 := Nat.le_div_iff_mul_le hw
    simp only [progressOf, Nat.le_min, hdiv]
    omega
  · have hdiv : 4000 ≤ (now - opens) * 1000 / w := (Nat.le_div_iff_mul_le hw).mpr (by omega)
    exact Nat.min_eq_left hdiv

/-! ### The pass timer and the counters (R72, R73, R95, R118, R129) -/

theorem armed_iff (s : State) : s.armed = true ↔
    s.settings.schedulerEnable = true ∧ s.clockValid = true ∧ ∀ d : Fin 7, s.rows[d].written = true := by
  have hrows : s.calendarValid = true ↔ ∀ d : Fin 7, s.rows[d].written = true := by
    simp only [State.calendarValid, List.all_eq_true, Vector.mem_toList_iff, Vector.mem_iff_getElem]
    exact ⟨fun h d => h _ ⟨d.val, d.isLt, rfl⟩, fun h r ⟨k, hk, e⟩ => e ▸ h ⟨k, hk⟩⟩
  simp only [State.armed, Bool.and_eq_true, hrows, and_assoc]

theorem passState_isIdle {p : PassState} : p.isIdle = true ↔ p = .idle := by
  cases p <;> simp [PassState.isIdle]

/-- An expiry begins a pass when the Scheduler is armed and IDLE, and otherwise does nothing (R73). -/
theorem passExpiry_eq (s : State) :
    (s.armed = true → s.passState = .idle → s.passExpiry = { s with passState := .walking 0, plan := [] }) ∧
      (s.armed = false ∨ s.passState ≠ .idle → s.passExpiry = s) := by
  unfold State.passExpiry
  refine ⟨fun ha hi => if_pos ?_, fun h => if_neg ?_⟩
  · rw [ha, passState_isIdle.mpr hi]; rfl
  · rw [Bool.and_eq_true, passState_isIdle]
    rintro ⟨ha, hi⟩
    rcases h with h | h
    · rw [ha] at h; cases h
    · exact h hi

/-- Settles O12: the two cases of an expiry, `armed_iff` telling them apart. -/
theorem passTimerExpiry : Obligations.PassTimerExpiry := by
  intro s hdue
  have hrun : exec .passTimerExpiry s = .next (State.passExpiry { s with passTimer := 0 }) := by
    change Host.Outcome.next s.passTimerEnd = _
    rw [State.passTimerEnd, if_pos hdue]
  obtain ⟨hbegin, hrest⟩ := passExpiry_eq { s with passTimer := 0 }
  rw [hrun, ← armed_iff]
  refine ⟨fun ha hi => congrArg _ (hbegin ha hi), fun h => congrArg _ (hrest (h.imp ?_ id))⟩
  exact Bool.eq_false_iff.mpr

/-- Settles O20: the three rows, each on a counter that reads 1. -/
theorem countersEnd : Obligations.CountersEnd := by
  intro s i n
  refine ⟨fun h => ?_, fun h hout => ?_, fun h => ?_⟩
  · change Host.Outcome.next (s.rechargeEnd i) = _
    rw [State.rechargeEnd, h]
    rfl
  · change Host.Outcome.next (s.backoffEnd i) = _
    rw [State.backoffEnd, h]
    simp only [hout, Nat.le_refl, and_self, if_true]
    rfl
  · change Host.Outcome.next (s.holdOffEnd n) = _
    rw [State.holdOffEnd, if_pos h]
    rfl

/-! ### A mains sense input (R122) -/

/-- Settles O28: each row of R122's table is one case of `SenseState.edge`. -/
theorem mainsSenseChange : Obligations.MainsSenseChange := by
  intro s n k m
  have hrun (present : Bool) : exec (.mainsSenseChange n present) s =
      .next (s.setMains n { m with sense := m.sense.edge present s.settings.debounce }) := rfl
  refine ⟨fun h => ?_, fun h => ?_, fun h => ?_, fun h => ?_⟩ <;> rw [hrun, h] <;> rfl

/-! ### The minute event (R38, R39, R50, R72, R126, R129) -/

/-- A minute event for the pass timer changes the Scheduler alone. -/
theorem passMinute_eq (s : State) :
    ∃ k p l, s.passMinute = { s with passTimer := k, passState := p, plan := l } := by
  unfold State.passMinute State.passExpiry
  split
  · split
    · exact ⟨_, _, _, rfl⟩
    · exact ⟨0, s.passState, s.plan, rfl⟩
  · exact ⟨s.passTimer + 1, s.passState, s.plan, rfl⟩

theorem kept_minuteEntries (s : State) : Kept s (forEntries State.minuteEntry s) :=
  (EntryOrder.tame_forEntries EntryOrder.tame_minuteEntry s).kept

/-- Mains Sense and the blackouts at a minute event, and what stays. -/
theorem mainsAndBlackouts_fields (u : State) :
    let c := u.mainsMinute.expireBlackouts
    c.seconds = u.seconds ∧ c.clockValid = u.clockValid ∧ c.minute = u.minute ∧
      c.blackouts = u.blackouts.filter (fun b => decide (u.minute < b.stop)) ∧ c.mains = u.mainsMinute.mains ∧
      c.passTimer = u.passTimer ∧ c.passState = u.passState ∧ c.plan = u.plan :=
  ⟨rfl, rfl, rfl, rfl, rfl, rfl, rfl, rfl⟩

/-- What a minute event makes of the clock, the blackouts, Mains Sense and the Scheduler. -/
theorem minuteTick_fields (s : State) :
    s.minuteTick.seconds = 0 ∧ s.minuteTick.clockValid = s.clockValid ∧ s.minuteTick.minute = s.clockMinute.minute ∧
      s.minuteTick.blackouts = s.blackouts.filter (fun b => decide (s.clockMinute.minute < b.stop)) ∧
      (∀ n, s.minuteTick.mainsLine n = (s.mainsLine n).minute) ∧
      s.minuteTick.passTimer = s.clockMinute.passMinute.passTimer ∧
      s.minuteTick.passState = s.clockMinute.passMinute.passState ∧
      s.minuteTick.plan = s.clockMinute.passMinute.plan := by
  obtain ⟨k, p, l, hp⟩ := passMinute_eq s.clockMinute
  have he := kept_minuteEntries s.clockMinute.passMinute
  generalize hu : forEntries State.minuteEntry s.clockMinute.passMinute = u at he
  have htick : s.minuteTick = u.mainsMinute.expireBlackouts.settleLines := by rw [← hu]; rfl
  have hk := (EntryOrder.tame_settleLines u.mainsMinute.expireBlackouts).kept
  obtain ⟨hsec, hvalid, hmin, hblack, hmains, htimer, hstate, hplan⟩ := mainsAndBlackouts_fields u
  have hmainsLine (n : LineId) : u.mainsLine n = s.mainsLine n := by
    unfold State.mainsLine; rw [he.mains, hp]; rfl
  rw [htick, hk.seconds, hk.clockValid, hk.minute, hk.blackouts, hk.passTimer, hk.passState, hk.plan, hsec, hvalid, hmin,
    hblack, htimer, hstate, hplan, he.seconds, he.clockValid, he.minute, he.blackouts, he.passTimer, he.passState,
    he.plan]
  refine ⟨by rw [hp]; rfl, by rw [hp]; rfl, by rw [hp], by rw [hp]; rfl, fun n => ?_, rfl, rfl, rfl⟩
  rw [← hmainsLine, ← mainsMinute_line]
  unfold State.mainsLine
  rw [hk.mains, hmains]

theorem passMinute_before {s : State} (h : s.passTimer + 1 < s.settings.passInterval) :
    s.passMinute = { s with passTimer := s.passTimer + 1 } := if_neg (Nat.not_le.mpr h)

theorem passMinute_due {s : State} (h : s.settings.passInterval ≤ s.passTimer + 1) :
    s.passMinute = State.passExpiry { s with passTimer := 0 } := if_pos h

/-- Settles O6: `minuteTick_fields`, the pass timer by the two cases of R72. -/
theorem minuteEventClockAndCounters : Obligations.MinuteEventClockAndCounters := by
  intro s
  obtain ⟨hsec, hvalid, hmin, hblack, hmains, htimer, hstate, hplan⟩ := minuteTick_fields s
  refine ⟨s.minuteTick, rfl, hsec, hvalid, fun hv hlt => ?_, fun h => ?_, by rw [hmin]; exact hblack,
    fun n => ?_, fun h => ?_, fun h => ?_⟩
  · rw [hmin]; simp [State.clockMinute, hv, hlt]
  · rw [hmin]
    unfold State.clockMinute
    rcases h with h | h
    · simp [h]
    · simp [Nat.not_lt.mpr h]
  · rw [hmains]; exact ⟨rfl, rfl, rfl⟩
  · rw [htimer, hstate, hplan, passMinute_before (s := s.clockMinute) h]
    exact ⟨rfl, rfl, rfl⟩
  · rw [htimer, hstate, hplan, passMinute_due (s := s.clockMinute) h]
    obtain ⟨hbegin, hrest⟩ := passExpiry_eq { s.clockMinute with passTimer := 0 }
    refine ⟨?_, fun ha hi => ?_, fun hn => ?_⟩
    · unfold State.passExpiry
      split <;> rfl
    · rw [hbegin ha hi]; exact ⟨rfl, rfl⟩
    · rw [hrest hn]; exact ⟨rfl, rfl⟩

end Sys2Proof.ClockAndCalendar
end

section
/-! The walk and admission of a scheduling pass (R57 to R61, R74 to R86). -/

namespace Sys2Proof.SchedulingPass

open Sys2Proof Sys2Proof.Machine Sys2Proof.Machine.Safety Sys2Proof.Laws Sys2Proof.Walks Sys2Proof.LineOrder
  Sys2Proof.EntryOrder Sys2Proof.DeviceLaws Sys2Proof.ClockAndCalendar

/-! ### Conditions -/

theorem isDown_iff {g : Engine} : g.isDown = true ↔ g = .down := by
  cases g <;> simp [Engine.isDown]

theorem lineDown_iff {s : State} {n : LineId} : s.lineDown n = true ↔ (s.line n).engine = .down := isDown_iff

theorem lineDown_false {s : State} {n : LineId} : s.lineDown n = false ↔ (s.line n).engine ≠ .down := by
  rw [← Bool.not_eq_true, lineDown_iff]

theorem inHoldOff_false {s : State} {n : LineId} : s.inHoldOff n = false ↔ (s.mainsLine n).holdOff = 0 := by
  simp [State.inHoldOff]

/-- The candidate conditions of the walk (R75). -/
theorem isCandidate_iff {s : State} {i : EntryId} : s.isCandidate i = true ↔
    (s.entry i).inUse = true ∧ (s.entry i).state = .ready ∧ (s.entry i).barred = false ∧ (s.entry i).held = false ∧
      s.inOutage (s.entry i).line = false ∧ (s.mainsLine (s.entry i).line).holdOff = 0 ∧
      (s.line (s.entry i).line).engine ≠ .down := by
  simp only [State.isCandidate, Bool.and_eq_true, Bool.not_eq_true', isReady_iff, inHoldOff_false, lineDown_false,
    and_assoc]

/-! ### The walk (R74, R80) -/

theorem walkEntry_eq {s : State} {i : EntryId} (ha : s.armed = true) (hw : s.passState = .walking i) :
    exec .walkEntry s = .next ((s.walkOne i).walkOn i) := by
  change Host.Outcome.next s.walkStep = _
  rw [State.walkStep, hw]
  exact congrArg _ (if_pos ha)

/-- The walk moves the pass state alone (R74, R80). -/
theorem walkOn_spec (s : State) (i : EntryId) :
    (∀ h : i.val + 1 < 240, s.walkOn i = { s with passState := .walking ⟨i.val + 1, h⟩ }) ∧
      (i.val = 239 → s.walkOn i = { s with passState := if s.plan = [] then .idle else .admitting }) := by
  refine ⟨fun h => by rw [State.walkOn, dif_pos h], fun h => ?_⟩
  rw [State.walkOn, dif_neg (by omega)]
  rcases hp : s.plan with _ | ⟨r, rest⟩
  · simp only [List.isEmpty_nil, if_true]
    rw [State.endPass, ← hp]
  · simp

theorem walkOn_plan (s : State) (i : EntryId) : (s.walkOn i).plan = s.plan := by
  obtain ⟨hnext, hlast⟩ := walkOn_spec s i
  rcases Nat.lt_or_ge (i.val + 1) 240 with h | h
  · rw [hnext h]
  · rw [hlast (by omega)]

theorem walkOn_passState (s : State) (i : EntryId) :
    (∀ h : i.val + 1 < 240, (s.walkOn i).passState = .walking ⟨i.val + 1, h⟩) ∧
      (i.val = 239 → (s.walkOn i).passState = if (s.walkOn i).plan = [] then .idle else .admitting) := by
  obtain ⟨hnext, hlast⟩ := walkOn_spec s i
  exact ⟨fun h => by rw [hnext h], fun h => by rw [hlast h]⟩

/-- Settles O13: an entry that is no candidate is not read, so only `walkOn` acts. -/
theorem walkPassesOver : Obligations.WalkPassesOver := by
  intro s i ha hw hfail
  have hno : ¬s.isCandidate i = true := by
    rw [isCandidate_iff]
    rintro ⟨h1, h2, h3, h4, h5, h6, h7⟩
    rcases hfail with h | h | h | h | h | h | h
    · rw [h1] at h; cases h
    · exact h h2
    · rw [h3] at h; cases h
    · rw [h4] at h; cases h
    · rw [h5] at h; cases h
    · omega
    · exact h7 h
  have hone : s.walkOne i = s := if_neg hno
  rw [walkEntry_eq ha hw, hone]
  obtain ⟨hnext, hlast⟩ := walkOn_spec s i
  exact ⟨fun h => congrArg _ (hnext h), fun h => congrArg _ (hlast h)⟩

/-! ### The evaluation (R55 to R61, R66) -/

/-- After case 3 of R57 a window's base is the kind's last end, else added at, else the other end, else now. -/
theorem windowBase_noteAdded (e : Entry) (k : Kind) (now : Nat) :
    (e.noteAdded now).windowBase k now = (((e.lastEnd k).or e.addedAt).or (e.lastEnd k.other)).getD now := by
  obtain ⟨-, -, -, -, -, -, -, -, -, -, -, -, added, lastF, lastD, -, -, -, -, -⟩ := e
  cases k <;> cases added <;> cases lastF <;> cases lastD <;> rfl

theorem noteAdded_addedAt (e : Entry) (now : Nat) : (e.noteAdded now).addedAt =
    if e.addedAt = none ∧ e.lastFunctionEnd = none ∧ e.lastDurationEnd = none then some now else e.addedAt := by
  unfold Entry.noteAdded
  split
  · next h1 h2 h3 => rw [if_pos ⟨h1, h2, h3⟩]
  · next h => exact (if_neg fun hn => h hn.1 hn.2.1 hn.2.2).symm

/-- Case 3 of R57 writes added at alone. -/
theorem noteAdded_eq (e : Entry) (now : Nat) : e.noteAdded now = { e with addedAt := (e.noteAdded now).addedAt } := by
  unfold Entry.noteAdded
  split <;> rfl

theorem windowWidth_pos (tolerance : Nat) : 0 < windowWidth tolerance :=
  Nat.lt_of_lt_of_le (by decide) (Nat.le_max_left _ _)

/-- An entry is overdue for a kind from the deadline on (R59). -/
theorem overdue_iff (e : Entry) (g : GroupSettings) (k : Kind) (now : Nat) :
    e.overdue g k now = true ↔ e.opens g k now + windowWidth (g.tolerance k) ≤ now := by
  obtain ⟨hprogress, -⟩ := progressAndScore
  have hpos := windowWidth_pos (g.tolerance k)
  rw [Entry.overdue, Bool.and_eq_true, Entry.eligible, decide_eq_true_eq, decide_eq_true_eq, Entry.progress]
  constructor
  · rintro ⟨hopen, hp⟩
    exact (hprogress now _ _ hpos hopen).2.2.1.mp hp
  · intro h
    have hopen : e.opens g k now ≤ now := by omega
    exact ⟨hopen, (hprogress now _ _ hpos hopen).2.2.1.mpr h⟩

/-- The overdue-noted flags after the evaluation (R66). -/
theorem evaluated_flags (e : Entry) (g : GroupSettings) (now : Nat) :
    (e.evaluated g now).overdueFunction = (e.overdueFunction || (e.noteAdded now).overdue g .function now) ∧
      (e.evaluated g now).overdueDuration = (e.overdueDuration || (e.noteAdded now).overdue g .duration now) := by
  have hf : (e.noteAdded now).overdueFunction = e.overdueFunction := by rw [noteAdded_eq]
  have hd : (e.noteAdded now).overdueDuration = e.overdueDuration := by rw [noteAdded_eq]
  simp only [Entry.evaluated, Entry.newlyOverdue, hf, hd]
  refine ⟨?_, ?_⟩
  · cases e.overdueFunction <;> simp
  · cases e.overdueDuration <;> simp

theorem raisesOverdue_iff (e : Entry) (g : GroupSettings) (now : Nat) : e.raisesOverdue g now = true ↔
    (e.overdueFunction = false ∧ (e.noteAdded now).overdue g .function now = true) ∨
      (e.overdueDuration = false ∧ (e.noteAdded now).overdue g .duration now = true) := by
  have hf : (e.noteAdded now).overdueFunction = e.overdueFunction := by rw [noteAdded_eq]
  have hd : (e.noteAdded now).overdueDuration = e.overdueDuration := by rw [noteAdded_eq]
  simp only [Entry.raisesOverdue, Entry.newlyOverdue, Bool.or_eq_true, Bool.and_eq_true, Bool.not_eq_true', hf, hd,
    and_comm]

theorem evaluate_entry (s : State) (i j : EntryId) : (s.evaluate i).entry j =
    if i = j then (s.entry i).evaluated (s.groupOf (s.entry i)) s.minute else s.entry j := by
  unfold State.evaluate
  dsimp only
  split
  · rw [entry_congr (raise_entries _ _), setEntry_entry]
  · exact setEntry_entry s i j _

theorem evaluate_overdue (s : State) (i : EntryId)
    (h : (s.entry i).raisesOverdue (s.groupOf (s.entry i)) s.minute = true) : (s.evaluate i).flag .overdue = true := by
  rw [State.evaluate, if_pos h]
  exact raise_flag_self _ _

/-- The candidate of an entry evaluated (the table of R61), by the minutes its windows open. -/
theorem candidateOf_eq {s : State} {i : EntryId} {opensF opensD : Nat} {g : GroupSettings}
    (hg : s.groupOf (s.entry i) = g) (hF : ((s.entry i).noteAdded s.minute).opens g .function s.minute = opensF)
    (hD : ((s.entry i).noteAdded s.minute).opens g .duration s.minute = opensD) :
    (opensD ≤ s.minute → s.candidateOf i = some
        { entry := i, kind := .duration,
          score := progressOf s.minute opensD (windowWidth g.durationTolerance) * g.weight + 500 }) ∧
      (s.minute < opensD → opensF ≤ s.minute → s.candidateOf i = some
        { entry := i, kind := .function,
          score := progressOf s.minute opensF (windowWidth g.functionTolerance) * g.weight }) ∧
      (s.minute < opensD → s.minute < opensF → s.candidateOf i = none) := by
  subst hg hF hD
  simp only [State.candidateOf, Entry.candidate, Entry.eligible, decide_eq_true_eq]
  refine ⟨fun h => ?_, fun h k => ?_, fun h k => ?_⟩
  · rw [if_pos h]; rfl
  · rw [if_neg (Nat.not_le.mpr h), if_pos k]; rfl
  · rw [if_neg (Nat.not_le.mpr h), if_neg (Nat.not_le.mpr k)]

theorem opens_function (s : State) (e : Entry) (g : GroupSettings) :
    (e.noteAdded s.minute).opens g .function s.minute =
      (((e.lastFunctionEnd.or e.addedAt).or e.lastDurationEnd).getD s.minute) + g.functionInterval * 1440 -
        g.functionTolerance * 1440 := by
  rw [Entry.opens, windowBase_noteAdded]; rfl

theorem opens_duration (s : State) (e : Entry) (g : GroupSettings) :
    (e.noteAdded s.minute).opens g .duration s.minute =
      (((e.lastDurationEnd.or e.addedAt).or e.lastFunctionEnd).getD s.minute) + g.durationInterval * 1440 -
        g.durationTolerance * 1440 := by
  rw [Entry.opens, windowBase_noteAdded]; rfl

/-- Settles O14: the windows by `opens_function` and `opens_duration`, the overdue flags by `overdue_iff`, the candidate
by `candidateOf_eq`. -/
theorem walkEvaluatesCandidate : Obligations.WalkEvaluatesCandidate := by
  intro s i ha hw hin hst hbar hheld hout hhold hdown e g first opensF opensD widthF widthD
  have hcand : s.isCandidate i = true := isCandidate_iff.mpr ⟨hin, hst, hbar, hheld, hout, hhold, hdown⟩
  have hone : s.walkOne i = (s.evaluate i).offerPlan (s.candidateOf i) := if_pos hcand
  have hopensF : (e.noteAdded s.minute).opens g .function s.minute = opensF := opens_function s e g
  have hopensD : (e.noteAdded s.minute).opens g .duration s.minute = opensD := opens_duration s e g
  have hoverF : (e.noteAdded s.minute).overdue g .function s.minute = decide (opensF + widthF ≤ s.minute) := by
    rw [Bool.eq_iff_iff, overdue_iff, hopensF, decide_eq_true_eq]; rfl
  have hoverD : (e.noteAdded s.minute).overdue g .duration s.minute = decide (opensD + widthD ≤ s.minute) := by
    rw [Bool.eq_iff_iff, overdue_iff, hopensD, decide_eq_true_eq]; rfl
  obtain ⟨p, l, ht⟩ := (planOnly_offerPlan (s.evaluate i) (s.candidateOf i)).trans (planOnly_walkOn _ i)
  obtain ⟨hnext, hlast⟩ := walkOn_passState ((s.evaluate i).offerPlan (s.candidateOf i)) i
  have hplan := walkOn_plan ((s.evaluate i).offerPlan (s.candidateOf i)) i
  have hentry (j : EntryId) : (((s.evaluate i).offerPlan (s.candidateOf i)).walkOn i).entry j =
      (s.evaluate i).entry j := by rw [ht]; rfl
  have hown : (((s.evaluate i).offerPlan (s.candidateOf i)).walkOn i).entry i = e.evaluated g s.minute := by
    rw [hentry, evaluate_entry, if_pos rfl]; rfl
  obtain ⟨hfF, hfD⟩ := evaluated_flags e g s.minute
  obtain ⟨hcD, hcF, hcN⟩ := candidateOf_eq (s := s) (i := i) rfl hopensF hopensD
  have hevalPlan : (s.evaluate i).plan = s.plan := (kept_evaluate s i).plan
  refine ⟨_, walkEntry_eq ha hw, ?_⟩
  rw [hone]
  refine ⟨?_, ?_, ?_, fun h => ?_, fun j hj => ?_, ?_, fun j => ?_, fun h => ?_, fun h k => ?_, fun h k => ?_, hnext,
    hlast⟩
  · rw [hown]; exact noteAdded_addedAt e s.minute
  · rw [hown, hfF, hoverF]
  · rw [hown, hfD, hoverD]
  · rw [ht]
    refine evaluate_overdue s i ((raisesOverdue_iff e g s.minute).mpr ?_)
    rw [hoverF, hoverD]
    simpa only [decide_eq_true_eq] using h
  · rw [hentry, evaluate_entry, if_neg (Ne.symm hj)]
  · rw [hown]; exact (evaluated_state e g s.minute).1.trans hst
  · rw [hentry]; exact (kept_evaluate s i).map j
  · rw [hplan, hcD h]; exact congrArg (insertPlan _) hevalPlan
  · rw [hplan, hcF h k]; exact congrArg (insertPlan _) hevalPlan
  · rw [hplan, hcN h k]; exact hevalPlan

end Sys2Proof.SchedulingPass
end

section
/-! The requests of the Management Engine, one command each (R8, R9, R14 to R19, R24, R25, R40, R44, R48, R49, R70, R71,
R111, R115, R117, R145, R164, R172 to R175). -/

namespace Sys2Proof.ManagementRequests

open Sys2Proof Sys2Proof.Machine Sys2Proof.Machine.Safety Sys2Proof.Laws Sys2Proof.DeviceLaws
  Sys2Proof.ClockAndCalendar

/-! ### The walk of a WRITE_TABLE (R172) -/

/-- The command of a record deals with it. -/
theorem recordCommand_eq {s : State} {who : Requester} {tb : Table} {r : TableRecord} {rest : List TableRecord}
    {taken : Nat} (h : s.mgmt = .working who (.writing tb (r :: rest) taken)) :
    exec (recordCommand r) s = .next (s.writeOne who tb rest taken (s.takeRecord r)) := by
  cases r with
  | blackout b =>
    unfold recordCommand
    dsimp only
    split
    · next hb =>
      exact congrArg _ (writeStep_mine (mine := TableRecord.isRemoval) h (beq_iff_eq.mpr hb))
    · next hb =>
      exact congrArg _ (writeStep_mine (mine := TableRecord.isInsertion) h (bne_iff_ne.mpr hb))
  | map r => exact congrArg _ (writeStep_mine (mine := TableRecord.isMap) h rfl)
  | group r => exact congrArg _ (writeStep_mine (mine := TableRecord.isGroup) h rfl)
  | calendar r => exact congrArg _ (writeStep_mine (mine := TableRecord.isCalendar) h rfl)
  | criteria c v => exact congrArg _ (writeStep_mine (mine := TableRecord.isCriteria) h rfl)
  | policy k halt => exact congrArg _ (writeStep_mine (mine := TableRecord.isPolicy) h rfl)
  | line r => exact congrArg _ (writeStep_mine (mine := TableRecord.isLine) h rfl)
  | bridge r => exact congrArg _ (writeStep_mine (mine := TableRecord.isBridge) h rfl)

/-- A refused record ends the walk with its position. -/
theorem record_refused {s : State} {who : Requester} {tb : Table} {r : TableRecord} {rest : List TableRecord}
    {taken : Nat} {code : MgmtCode} (h : s.mgmt = .working who (.writing tb (r :: rest) taken))
    (hr : s.takeRecord r = .error code) :
    ∃ t, exec (recordCommand r) s = .next t ∧ Answered s t who 2 code [byteOf (taken + 1)] := by
  refine ⟨_, recordCommand_eq h, ?_⟩
  rw [hr]
  exact finish_answered s who 2 code _

/-- The last record, taken, ends the walk with the number taken. -/
theorem lastRecord_taken {s s' : State} {who : Requester} {tb : Table} {r : TableRecord} {taken : Nat}
    (h : s.mgmt = .working who (.writing tb [r] taken)) (hr : s.takeRecord r = .ok s') :
    ∃ t, exec (recordCommand r) s = .next t ∧ Answered s' t who 2 .ok [byteOf (taken + 1)] := by
  refine ⟨_, recordCommand_eq h, ?_⟩
  rw [hr]
  exact finish_answered s' who 2 .ok _

theorem writeTable_eq {s : State} {who : Requester} {table : Byte} {records : List TableRecord}
    (h : s.mgmt = .working who (.request (.writeTable table records))) :
    exec .writeTable s = .next (s.writeBegin who table records) := by
  change execWriteTable s = _
  rw [execWriteTable, inHand_of_working h]

theorem imageBusy_iff {s : State} : s.imageBusy = true ↔ s.save ≠ none := by
  simp [State.imageBusy, Option.isSome_iff_ne_none]

/-- Settles O43: `writeBegin` by its checks in order, each record by `recordCommand_eq`. -/
theorem writeTableWalk : Obligations.WriteTableWalk := by
  intro s who
  refine ⟨fun table records h => ?_, fun tb r rest taken h => ⟨fun code hr => record_refused h hr, fun s' hr => ?_⟩⟩
  · rw [writeTable_eq h]
    unfold State.writeBegin
    refine ⟨fun hbusy => ⟨_, Config.unexaminedPosition, rfl, ?_⟩,
      fun hfree hnone => ⟨_, Config.unexaminedPosition, rfl, ?_⟩, fun tb hfree htb =>
      ⟨fun hnil => ⟨_, rfl, ?_⟩, fun hcons => ?_⟩⟩
    · rw [if_pos (imageBusy_iff.mpr hbusy)]
      exact finish_answered s who 2 .imageBusy _
    · rw [if_neg (by rw [imageBusy_iff]; exact Classical.not_not.mpr hfree), hnone]
      exact finish_answered s who 2 .unknownTable _
    · rw [if_neg (by rw [imageBusy_iff]; exact Classical.not_not.mpr hfree), htb, hnil]
      exact finish_answered s who 2 .ok _
    · rw [if_neg (by rw [imageBusy_iff]; exact Classical.not_not.mpr hfree), htb]
      simp [List.isEmpty_iff, hcons]
  · rw [recordCommand_eq h, hr]
    refine ⟨fun hnil => ⟨_, rfl, ?_⟩, fun hcons => ?_⟩
    · rw [State.writeOne, hnil]
      exact finish_answered s' who 2 .ok _
    · rw [State.writeOne]
      simp [List.isEmpty_iff, hcons]

/-! ### The settings records (R24, R25, R111, R115, R145, R173) -/

/-- A pass of an unarmed Scheduler is ended (R71). -/
theorem endIfUnarmed_eq (s : State) : s.endIfUnarmed =
    { s with passState := if s.armed then s.passState else .idle, plan := if s.armed then s.plan else [] } := by
  unfold State.endIfUnarmed
  split
  · rfl
  · rfl

/-- The notice marks are dropped without a report address (R184). -/
theorem dropNotice_eq (s : State) : s.dropNotice =
    { s with
      noticePending := s.noticePending && decide (s.settings.reportAddress ≠ 0)
      noticeOwed := s.noticeOwed && decide (s.settings.reportAddress ≠ 0) } := by
  unfold State.dropNotice
  split
  · next h => simp only [h, ne_eq, not_true_eq_false, decide_false, Bool.and_false]
  · next h => simp only [h, ne_eq, not_false_eq_true, decide_true, Bool.and_true]

/-- Settles O44: each record's rule, in and out of its ranges. -/
theorem settingsRecordsStored : Obligations.SettingsRecordsStored := by
  intro s who tb taken
  refine ⟨fun r ho hi h => ?_, fun c v hc h => ?_, fun k halt hk h => ?_, fun r hr h => ?_, fun r hm h h0 htype => ?_,
    fun record code h hcase => ?_⟩
  · exact lastRecord_taken (r := .group r) h ((dif_pos hi).trans (dif_pos ho))
  · exact lastRecord_taken (r := .criteria c v) h (dif_pos hc)
  · exact lastRecord_taken (r := .policy k halt) h (dif_pos hk)
  · exact lastRecord_taken (r := .line r) h (dif_pos hr)
  · refine lastRecord_taken (r := .bridge r) h ?_
    change s.takeBridge r = _
    rw [State.takeBridge, if_neg (by simp [h0]), if_neg (Nat.not_lt.mpr htype), dif_pos hm, endIfUnarmed_eq, dropNotice_eq]
    rfl
  · refine record_refused (rest := []) h ?_
    rcases hcase with ⟨rfl, ⟨r, rfl, hr⟩ | ⟨c, v, rfl, hc⟩ | ⟨k, halt, rfl, hk⟩ | ⟨r, rfl, hr⟩ | ⟨r, rfl, hr⟩⟩ |
      ⟨rfl, ⟨r, rfl, hi, ho⟩ | ⟨r, rfl, hi, hbad⟩⟩
    · exact dif_neg (by omega)
    · exact dif_neg (by omega)
    · exact dif_neg (by omega)
    · exact dif_neg (by omega)
    · exact if_pos hr
    · change s.takeGroup r = _
      rw [State.takeGroup, dif_pos hi, dif_neg (by omega)]
    · change s.takeBridge r = _
      rw [State.takeBridge, if_neg (by simp [hi])]
      rcases hbad with hbad | hbad
      · rw [if_pos hbad]
      · rw [dif_neg (by omega), ite_self]

/-! ### The calendar records (R44, R48, R49) -/

theorem takeBlackout_insert {s : State} {b : Blackout} (h : b.classes ≠ 0) :
    s.takeRecord (.blackout b) = s.blackoutInsert b := if_neg h

theorem takeBlackout_remove {s : State} {b : Blackout} (h : b.classes = 0) :
    s.takeRecord (.blackout b) = s.blackoutRemove b := if_pos h

/-- In a list in order nothing behind the place of an insertion goes before it (R48). -/
theorem placeBlackout_place {b : Blackout} {l : List Blackout} (h : l.Pairwise fun x y => x.before y = true) :
    ∃ pre post, l = pre ++ post ∧ placeBlackout b l = pre ++ b :: post ∧ (∀ x ∈ pre, x.before b = true) ∧
      ∀ y ∈ post, y.before b = false := by
  obtain ⟨pre, post, rfl, hplaced, hpre, hpost⟩ := placeBlackout_split b l
  refine ⟨pre, post, rfl, hplaced, hpre, fun y hy => ?_⟩
  obtain ⟨-, hq, -⟩ := List.pairwise_append.mp h
  cases post with
  | nil => cases hy
  | cons z rest =>
    have hz := hpost z (by simp)
    rcases List.mem_cons.mp hy with rfl | hy
    · exact hz
    · refine Classical.byContradiction fun hn => ?_
      have hzb := before_trans ((List.pairwise_cons.mp hq).1 y hy) (by simpa using hn)
      rw [hz] at hzb
      cases hzb

/-- Settles O45: the row, the three checks of an insertion and its place, the removal. -/
theorem calendarRecordsStored : Obligations.CalendarRecordsStored := by
  intro s who tb taken
  refine ⟨fun r h => ⟨fun hr => ?_, fun hr => ?_⟩, fun b h => ⟨fun hb => ?_, fun hb => ?_⟩⟩
  · exact record_refused (r := .calendar r) h (dif_neg (by omega))
  · exact lastRecord_taken (r := .calendar r) h (dif_pos hr)
  · have hcmd : recordCommand (.blackout b) = .blackoutInsert := if_neg hb
    rw [← hcmd]
    refine ⟨fun hspan => record_refused h ?_, fun hspan hdup => record_refused h ?_,
      fun hspan hnew hfull => record_refused h ?_, fun hspan hnew hroom hlaw => ?_⟩
    · rw [takeBlackout_insert hb, State.blackoutInsert, if_pos hspan]
    · rw [takeBlackout_insert hb, State.blackoutInsert, if_neg (Nat.not_le.mpr hspan), if_pos (by simpa using hdup)]
    · rw [takeBlackout_insert hb, State.blackoutInsert, if_neg (Nat.not_le.mpr hspan), if_neg (by simpa using hnew),
        if_pos hfull]
    · obtain ⟨-, hord, -⟩ := hlaw
      obtain ⟨pre, post, hl, hplaced, hpre, hpost⟩ := placeBlackout_place (b := b) hord
      have htake : s.takeRecord (.blackout b) = .ok { s with blackouts := pre ++ b :: post } := by
        rw [takeBlackout_insert hb, State.blackoutInsert, if_neg (Nat.not_le.mpr hspan), if_neg (by simpa using hnew),
          if_neg (Nat.not_le.mpr hroom), hplaced]
      obtain ⟨t, ht, hans⟩ := lastRecord_taken h htake
      refine ⟨t, pre, post, ht, hans, hl, fun x hx => (before_iff x b).mp (hpre x hx), fun y hy hbefore => ?_, ?_, ?_⟩
      · have := (before_iff y b).mpr hbefore
        rw [hpost y hy] at this
        cases this
      · rw [← hplaced]; exact placeBlackout_perm b _
      · rw [← hplaced]; exact placeBlackout_pairwise hord
  · have hcmd : recordCommand (.blackout b) = .blackoutRemove := if_pos hb
    rw [← hcmd]
    refine ⟨fun hspan => record_refused h ?_, fun hspan => lastRecord_taken h ?_⟩
    · rw [takeBlackout_remove hb, State.blackoutRemove, if_pos hspan]
    · rw [takeBlackout_remove hb, State.blackoutRemove, if_neg (Nat.not_le.mpr hspan)]
      refine congrArg (fun l => Except.ok { s with blackouts := l }) (List.filter_congr fun x _ => ?_)
      rw [Bool.eq_iff_iff]
      simp [Decidable.imp_iff_not_or]

end Sys2Proof.ManagementRequests
end

section
/-! The controls of one entry and of the bridge, and the status block their answers show (R8, R9, R40, R70, R71, R117,
R164, R174, R175, R183). -/

namespace Sys2Proof.BridgeControls

open Sys2Proof Sys2Proof.Machine Sys2Proof.Machine.Safety Sys2Proof.Laws Sys2Proof.DeviceLaws
  Sys2Proof.ClockAndCalendar Sys2Proof.ManagementRequests

/-! ### The commands of one request -/

theorem setClock_eq {s : State} {who : Requester} {m : Nat} (h : s.mgmt = .working who (.request (.setClock m))) :
    exec .setClock s = .next (s.setClock who m) := by
  change execSetClock s = _
  rw [execSetClock, inHand_of_working h]

theorem readStatus_eq {s : State} {who : Requester} {take : Bool}
    (h : s.mgmt = .working who (.request (.readStatus take))) :
    exec .readStatus s = .next (s.readStatus who take) := by
  change execReadStatus s = _
  rw [execReadStatus, inHand_of_working h]

theorem schedOn_eq {s : State} {who : Requester} (h : s.mgmt = .working who (.request .schedOn)) :
    exec .schedOn s = .next (s.schedOn who) := by
  change execSchedOn s = _
  rw [execSchedOn, inHand_of_working h]

theorem schedOff_eq {s : State} {who : Requester} (h : s.mgmt = .working who (.request .schedOff)) :
    exec .schedOff s = .next (s.schedOff who) := by
  change execSchedOff s = _
  rw [execSchedOff, inHand_of_working h]

theorem clearFault_eq {s : State} {who : Requester} {k : Nat}
    (h : s.mgmt = .working who (.request (.clearFault k))) : exec .clearFault s = .next (s.clearFault who k) := by
  change execClearFault s = _
  rw [execClearFault, inHand_of_working h]

theorem setHold_eq {s : State} {who : Requester} {k : Nat} (h : s.mgmt = .working who (.request (.setHold k))) :
    exec .setHold s = .next (s.setHold who k) := by
  change execSetHold s = _
  rw [execSetHold, inHand_of_working h]

theorem clearHold_eq {s : State} {who : Requester} {k : Nat} (h : s.mgmt = .working who (.request (.clearHold k))) :
    exec .clearHold s = .next (s.clearHold who k) := by
  change execClearHold s = _
  rw [execClearHold, inHand_of_working h]

theorem clearTouched_eq {s : State} {who : Requester} {k : Nat}
    (h : s.mgmt = .working who (.request (.clearTouched k))) :
    exec .clearTouched s = .next (s.clearTouched who k) := by
  change execClearTouched s = _
  rw [execClearTouched, inHand_of_working h]

theorem armCapture_eq {s : State} {who : Requester} {target : Nat} {mode action : Byte}
    (h : s.mgmt = .working who (.request (.armCapture target mode action))) :
    exec .armCapture s = .next (s.armCapture who target mode action) := by
  change execArmCapture s = _
  rw [execArmCapture, inHand_of_working h]

theorem disarmCapture_eq {s : State} {who : Requester} (h : s.mgmt = .working who (.request .disarmCapture)) :
    exec .disarmCapture s = .next (s.disarmCapture who) := by
  change execDisarmCapture s = _
  rw [execDisarmCapture, inHand_of_working h]

theorem clearEvents_eq {s : State} {who : Requester} {set : BitVec 14}
    (h : s.mgmt = .working who (.request (.clearEvents set))) :
    exec .clearEvents s = .next (s.clearEvents who set) := by
  change execClearEvents s = _
  rw [execClearEvents, inHand_of_working h]

theorem saveImage_eq {s : State} {who : Requester} (h : s.mgmt = .working who (.request .saveImage)) :
    exec .saveImage s = .next (s.saveImage who) := by
  change execSaveImage s = _
  rw [execSaveImage, inHand_of_working h]

/-! ### One entry (R175) -/

section OneEntry

variable {s : State} {act : EntryId → MgmtCode × State} {k : Nat}

theorem onEntry_beyond (who : Requester) (request : Nat) (h : 239 < k) :
    s.onEntry who request k act = s.finish who request .indexRange [] := dif_neg (by omega)

theorem onEntry_free (who : Requester) (request : Nat) (h : k < 240) (hfree : (s.entry ⟨k, h⟩).inUse = false) :
    s.onEntry who request k act = s.finish who request .badValue [] :=
  (dif_pos h).trans (if_neg (by simp [hfree]))

theorem onEntry_inUse (who : Requester) (request : Nat) (h : k < 240) (huse : (s.entry ⟨k, h⟩).inUse = true) :
    s.onEntry who request k act = (act ⟨k, h⟩).2.finish who request (act ⟨k, h⟩).1 [] :=
  (dif_pos h).trans (if_pos huse)

/-- What a control of one entry refuses. -/
theorem onEntry_refusals {command : Instr} (who : Requester) (request : Nat)
    (h : exec command s = .next (s.onEntry who request k act)) :
    (239 < k → ∃ t, exec command s = .next t ∧ Answered s t who request .indexRange []) ∧
      ∀ h : k < 240, (s.entry ⟨k, h⟩).inUse = false →
        ∃ t, exec command s = .next t ∧ Answered s t who request .badValue [] := by
  refine ⟨fun hk => ⟨_, h, ?_⟩, fun hk hfree => ⟨_, h, ?_⟩⟩
  · rw [onEntry_beyond who request hk]; exact finish_answered s who request .indexRange []
  · rw [onEntry_free who request hk hfree]; exact finish_answered s who request .badValue []

/-- What a control does to the entry it names. -/
theorem onEntry_acts {command : Instr} (who : Requester) (request : Nat)
    (h : exec command s = .next (s.onEntry who request k act)) (hk : k < 240)
    (huse : (s.entry ⟨k, hk⟩).inUse = true) :
    ∃ t, exec command s = .next t ∧ Answered (act ⟨k, hk⟩).2 t who request (act ⟨k, hk⟩).1 [] := by
  refine ⟨_, h, ?_⟩
  rw [onEntry_inUse who request hk huse]
  exact finish_answered _ who request _ []

end OneEntry

theorem clearTouched_one {k : Nat} (s : State) (who : Requester) (h : k ≠ 255) :
    s.clearTouched who k = s.onEntry who 21 k fun i => (.ok, s.setEntry i { s.entry i with touched := false }) :=
  if_neg h

/-- Settles O47: each command is `onEntry` with its act. -/
theorem entryControls : Obligations.EntryControls := by
  intro s who k
  refine ⟨fun h => onEntry_refusals who 18 (clearFault_eq h), fun h => onEntry_refusals who 19 (setHold_eq h),
    fun h => onEntry_refusals who 20 (clearHold_eq h), fun hk h => ?_, fun h hk huse => ?_, fun h hk huse => ?_,
    fun hne h hk huse => ?_, fun h => ?_, fun h hk huse => ⟨fun hstate => ?_, fun hstate => ?_⟩⟩
  · exact onEntry_refusals who 21 (clearTouched_one s who hk ▸ clearTouched_eq h)
  · exact onEntry_acts who 19 (setHold_eq h) hk huse
  · exact onEntry_acts who 20 (clearHold_eq h) hk huse
  · exact onEntry_acts who 21 (clearTouched_one s who hne ▸ clearTouched_eq h) hk huse
  · refine ⟨_, clearTouched_eq h, ?_⟩
    have hentries (u : State) : (u.finish who 21 .ok []).entries = u.entries := by
      obtain ⟨heq, -⟩ := finish_answered u who 21 .ok []
      rw [heq]
    rw [State.clearTouched, if_pos rfl]
    refine ⟨fun i => ?_, ?_⟩
    · rw [State.entry, hentries]
      exact clearAllTouched_entry s i
    · rw [hentries]
      exact finish_answered s.clearAllTouched who 21 .ok []
  · have hacts := onEntry_acts who 18 (clearFault_eq h) hk huse
    rw [State.clearFaultOf, hstate] at hacts
    exact hacts
  · have hacts := onEntry_acts who 18 (clearFault_eq h) hk huse
    have hbusy : s.clearFaultOf ⟨k, hk⟩ = (.busy, s) := by
      unfold State.clearFaultOf
      split
      · next heq => exact absurd heq hstate
      · rfl
    rw [hbusy] at hacts
    exact hacts

/-! ### The status block, place by place (R174, R183) -/

/-- The number whose `k` bytes stand behind `front`. -/
theorem natAt_behind {b : List Byte} {k n off : Nat} (front : List Byte)
    (hb : ∃ back, b = front ++ (beBytes k n ++ back)) (hl : front.length = off) : natAt b off k = n % 256 ^ k := by
  obtain ⟨back, rfl⟩ := hb
  subst hl
  unfold natAt
  rw [List.drop_left, List.take_append_of_le_length (by simp), List.take_of_length_le (by simp), beNat_beBytes]

/-- The four bits of a conditions byte. -/
theorem bits4_bits (a b c d : Bool) :
    (bits4 a b c d).getLsbD 0 = a ∧ (bits4 a b c d).getLsbD 1 = b ∧ (bits4 a b c d).getLsbD 2 = c ∧
      (bits4 a b c d).getLsbD 3 = d ∧ ∀ k, 4 ≤ k → (bits4 a b c d).getLsbD k = false := by
  have hlow : (bits4 a b c d).getLsbD 0 = a ∧ (bits4 a b c d).getLsbD 1 = b ∧ (bits4 a b c d).getLsbD 2 = c ∧
      (bits4 a b c d).getLsbD 3 = d := by
    revert a b c d; decide
  have hsmall : (bits4 a b c d).toNat < 2 ^ 4 := by revert a b c d; decide
  obtain ⟨h0, h1, h2, h3⟩ := hlow
  refine ⟨h0, h1, h2, h3, fun k hk => ?_⟩
  rw [← BitVec.testBit_toNat]
  exact Nat.testBit_lt_two_pow (Nat.lt_of_lt_of_le hsmall (Nat.pow_le_pow_right (by omega) hk))

/-- The ten bytes of a line stand at their place in the status block. -/
theorem statusBlock_line (s : State) (n : LineId) : ∃ front back : List Byte,
    s.statusBlock = front ++ (s.lineStatus n ++ back) ∧ front.length = 18 + 10 * n.val := by
  have hlines : ∃ before after, allLines = before ++ n :: after ∧ before.length = n.val := by
    refine ⟨allLines.take n.val, allLines.drop (n.val + 1), ?_, by simp [allLines]⟩
    have hn : n.val < allLines.length := by simp [allLines]
    have hget : allLines[n.val]'hn = n := by simp [allLines]
    conv => lhs; rw [← List.take_append_drop n.val allLines, List.drop_eq_getElem_cons hn, hget]
  obtain ⟨before, after, hlines, hlen⟩ := hlines
  refine ⟨beBytes 2 s.flags.toNat ++ [s.conditions, byteOf s.passState.code] ++ beBytes 4 s.minute ++
    [byteOf s.rx.length, byteOf s.tx.length] ++ s.stateCounts ++ [byteOf s.touchedCount] ++
    before.flatMap s.lineStatus, after.flatMap s.lineStatus, ?_, ?_⟩
  · rw [State.statusBlock, hlines]
    simp only [List.flatMap_append, List.flatMap_cons, List.append_assoc]
  · have hten (m : LineId) : (s.lineStatus m).length = 10 := by simp [State.lineStatus]
    have hlines (l : List LineId) : (l.flatMap s.lineStatus).length = 10 * l.length := by
      induction l with
      | nil => rfl
      | cons m l ih =>
        rw [List.flatMap_cons, List.length_append, hten, ih, List.length_cons]
        omega
    simp only [List.length_append, hlines, beBytes_length, List.length_cons, List.length_nil, State.stateCounts,
      List.length_map, List.length_range, hlen]

theorem statusShows (s : State) : StatusShows s s.statusBlock := by
  have hpass : byteOf s.passState.code = (match s.passState with
      | .idle => 0
      | .walking _ => 1
      | .admitting => 2) := by
    cases s.passState <;> rfl
  refine ⟨?_, bits4_bits _ _ _ _, hpass, ?_, rfl, rfl, fun k => ?_, rfl, fun n => ?_⟩
  · exact (natAt_behind [] ⟨_, by simp only [State.statusBlock, List.append_assoc]; rfl⟩ rfl).trans
      (Nat.mod_eq_of_lt (by have := s.flags.isLt; omega))
  · exact natAt_behind (beBytes 2 s.flags.toNat ++ [s.conditions, byteOf s.passState.code])
      ⟨_, by simp only [State.statusBlock, List.append_assoc]; rfl⟩ rfl
  · match k with
    | ⟨0, _⟩ | ⟨1, _⟩ | ⟨2, _⟩ | ⟨3, _⟩ | ⟨4, _⟩ | ⟨5, _⟩ | ⟨6, _⟩ => rfl
  · obtain ⟨front, back, hblock, hlen⟩ := statusBlock_line s n
    have hengine : byteOf (s.line n).engine.code = (match (s.line n).engine with
        | .idle => 0
        | .sending _ => 1
        | .awaiting _ _ => 2
        | .holding => 3
        | .gap => 4
        | .down => 5) := by
      cases (s.line n).engine <;> rfl
    have hat (k : Nat) : byteAt s.statusBlock (18 + 10 * n.val + k) = byteAt (s.lineStatus n ++ back) k := by
      rw [hblock, byteAt_front k hlen]
    have hminutes : natAt s.statusBlock (18 + 10 * n.val + 1) 2 = (s.mainsLine n).outageMinutes % 65536 :=
      natAt_behind (front ++ [boolByte (s.mainsLine n).sense.inOutage])
        ⟨_, by rw [hblock]; simp only [State.lineStatus, List.append_assoc, List.cons_append, List.nil_append]; rfl⟩
        (by simp [hlen])
    have hholdOff : natAt s.statusBlock (18 + 10 * n.val + 3) 2 = (s.mainsLine n).holdOff % 65536 :=
      natAt_behind (front ++ (boolByte (s.mainsLine n).sense.inOutage :: beBytes 2 (s.mainsLine n).outageMinutes))
        ⟨_, by rw [hblock]; simp only [State.lineStatus, List.append_assoc, List.cons_append]; rfl⟩
        (by simp [hlen])
    have hplace (j k : Nat) (h : j = 18 + k) : j + 10 * n.val = 18 + 10 * n.val + k := by omega
    refine ⟨hat 0, hplace 19 1 rfl ▸ hminutes, hplace 21 3 rfl ▸ hholdOff, ?_, ?_, ?_, ?_, ?_⟩
    · rw [hplace 23 5 rfl, hat 5]; exact hengine
    · rw [hplace 24 6 rfl, hat 6]; rfl
    · rw [hplace 25 7 rfl, hat 7]; rfl
    · rw [hplace 26 8 rfl, hat 8]; rfl
    · rw [hplace 27 9 rfl, hat 9]; rfl

/-! ### The bridge (R40, R70, R71, R164, R174, R175) -/

theorem clearClockNeeded (s : State) :
    s.clearFlags EventFlag.clockNeeded.mask = { s with flags := s.flags &&& 0x1FFF } := by
  have hmask : ~~~EventFlag.clockNeeded.mask = 0x1FFF := by decide
  rw [State.clearFlags, hmask]

theorem clearAllFlags (s : State) : s.clearFlags s.flags = { s with flags := 0 } := by
  rw [State.clearFlags, BitVec.and_not_self]

theorem captureMode_ofCode (m : CaptureMode) : CaptureMode.ofCode (byteOf m.code).toNat = some m := by
  cases m <;> rfl

theorem captureAction_ofCode (a : CaptureAction) : CaptureAction.ofCode (byteOf a.code).toNat = some a := by
  cases a <;> rfl

theorem captureMode_beyond {k : Nat} (h : 3 < k) : CaptureMode.ofCode k = none :=
  match k, h with
  | _ + 4, _ => rfl

theorem captureAction_beyond {k : Nat} (h : 1 < k) : CaptureAction.ofCode k = none :=
  match k, h with
  | _ + 2, _ => rfl

/-- An ARM_CAPTURE with a field out of range sets nothing up (R164). -/
theorem arm_none {c : Capture} {target : Nat} {mode action : Byte}
    (h : target = 0 ∨ 999999 < target ∨ mode = 0 ∨ 3 < mode.toNat ∨ 1 < action.toNat) :
    c.arm target mode action = none := by
  unfold Capture.arm
  split
  · next m a hm ha =>
    refine if_pos ?_
    rcases h with h | h | rfl | h | h
    · exact .inl h
    · exact .inr (.inl h)
    · exact .inr (.inr (Option.some.inj hm).symm)
    · rw [captureMode_beyond h] at hm; cases hm
    · rw [captureAction_beyond h] at ha; cases ha
  · rfl

theorem arm_some {c : Capture} {target : Nat} {m : CaptureMode} (a : CaptureAction) (h1 : 1 ≤ target)
    (h2 : target ≤ 999999) (hm : m ≠ .off) : c.arm target (byteOf m.code) (byteOf a.code) =
      some { c with target := target, mode := m, action := a, state := .watching } := by
  unfold Capture.arm
  rw [captureMode_ofCode, captureAction_ofCode]
  exact if_neg (by rintro (h | h | h); omega; omega; exact hm h)

theorem captureBlock_length {s : State} (h : CaptureLaw s) : s.capture.block.length = 30 := by
  obtain ⟨-, hrecord, -⟩ := h
  unfold Capture.block
  split
  · next r hr =>
    have := hrecord r hr
    simp [CaptureRecord.block, filler]
    omega
  · simp

theorem captureBlock_target {s : State} (h : CaptureLaw s) : natAt s.capture.block 1 4 = s.capture.target := by
  obtain ⟨⟨-, ht⟩, -, -⟩ := h
  exact (natAt_behind [byteOf s.capture.state.code]
    ⟨_, by simp only [Capture.block, List.append_assoc, List.cons_append, List.nil_append]; rfl⟩ rfl).trans
    (Nat.mod_eq_of_lt (by omega))

/-- Settles O48: each command's own change, and its answer. -/
theorem bridgeControls : Obligations.BridgeControls := by
  intro s who
  refine ⟨fun m h => ⟨fun hbusy => ?_, fun hfree => ?_⟩, fun take h => ?_, fun h => ?_, fun h => ?_, fun set h => ?_,
    fun target mode action h => ⟨fun hbad => ?_, ?_⟩, fun h => ⟨_, disarmCapture_eq h, ?_, fun hopen => ?_⟩⟩
  · refine ⟨_, setClock_eq h, ?_⟩
    rw [State.setClock, if_pos (imageBusy_iff.mpr hbusy)]
    exact finish_answered s who 3 .imageBusy []
  · refine ⟨_, setClock_eq h, ?_⟩
    rw [State.setClock, if_neg (by rw [imageBusy_iff]; exact Classical.not_not.mpr hfree),
      State.loadClock, clearClockNeeded]
    exact finish_answered _ who 3 .ok []
  · refine ⟨_, _, _, readStatus_eq h, ?_, statusBlock_length s, statusShows s, captureShows s.capture,
      fun hlaw => ⟨captureBlock_length hlaw, captureBlock_target hlaw⟩⟩
    unfold State.readStatus
    cases take with
    | false => exact finish_answered s who 4 .ok _
    | true =>
      rw [if_pos rfl, if_pos rfl, clearAllFlags]
      exact finish_answered _ who 4 .ok _
  · exact ⟨_, schedOn_eq h, finish_answered _ who 16 .ok []⟩
  · exact ⟨_, schedOff_eq h, finish_answered _ who 17 .ok []⟩
  · exact ⟨_, clearEvents_eq h, finish_answered _ who 28 .ok []⟩
  · refine ⟨_, armCapture_eq h, ?_⟩
    rw [State.armCapture, arm_none hbad]
    exact finish_answered s who 22 .badValue []
  · rintro m a h1 h2 hm rfl rfl
    refine ⟨_, armCapture_eq h, ?_⟩
    rw [State.armCapture, arm_some a h1 h2 hm]
    exact finish_answered _ who 22 .ok []
  · rintro ⟨r, hr⟩
    rw [State.disarmCapture, Capture.disarm, hr]
    exact finish_answered _ who 23 .ok []
  · have hdisarm : s.capture.disarm = { s.capture with state := .idle none } := by
      unfold Capture.disarm
      split
      · next r hr => exact absurd hr (hopen r)
      · rfl
      · rfl
    rw [State.disarmCapture, hdisarm]
    exact finish_answered _ who 23 .ok []

end Sys2Proof.BridgeControls
end

section
/-! The MAP records of a WRITE_TABLE (R14 to R19). -/

namespace Sys2Proof.MapRecords

open Sys2Proof Sys2Proof.Machine Sys2Proof.Machine.Safety Sys2Proof.Laws Sys2Proof.DeviceLaws
  Sys2Proof.ManagementRequests

/-! ### The checks of R15 -/

section Checks

variable {r : MapRecord}

/-- A record that frees passes the value checks (log 35). -/
theorem valueBad_of_frees (e : Entry) (h : r.identity = true ∧ r.inUse = false) : r.valueBad e = false := by
  obtain ⟨hid, hno⟩ := h
  simp [MapRecord.valueBad, hid, hno]

theorem identityBad_iff (h : r.inUse = true) :
    r.identityBad = true ↔ r.cln = 0 ∨ 999999 < r.cln ∨ 5 < r.line ∨ r.node = 0 ∨ 40 < r.node := by
  simp [MapRecord.identityBad, h, or_assoc]

theorem creates_iff (e : Entry) :
    r.creates e = true ↔ e.inUse = false ∧ r.identity = true ∧ r.inUse = true := by
  simp [MapRecord.creates, and_assoc]

theorem inUse_of_not_frees (h : ¬(r.identity = true ∧ r.inUse = false)) (hid : r.identity = true) :
    r.inUse = true := by
  simpa [hid] using h

theorem valueBad_iff (e : Entry) : r.valueBad e = true ↔ ¬(r.identity = true ∧ r.inUse = false) ∧
    ((r.identity = true ∧ (r.cln = 0 ∨ 999999 < r.cln ∨ 5 < r.line ∨ r.node = 0 ∨ 40 < r.node)) ∨
      ((r.membership = true ∨ (e.inUse = false ∧ r.identity = true ∧ r.inUse = true)) ∧ 31 < r.group) ∨
      ((r.ratings = true ∨ (e.inUse = false ∧ r.identity = true ∧ r.inUse = true)) ∧ 15 < r.battery)) := by
  by_cases hfrees : r.identity = true ∧ r.inUse = false
  · simp [valueBad_of_frees e hfrees, hfrees]
  · have hsel : (!(r.identity && !r.inUse)) = true := by simpa [Decidable.imp_iff_not_or] using hfrees
    have hid : (r.identity = true ∧ r.identityBad = true) ↔ (r.identity = true ∧
        (r.cln = 0 ∨ 999999 < r.cln ∨ 5 < r.line ∨ r.node = 0 ∨ 40 < r.node)) :=
      and_congr_right fun hid => identityBad_iff (inUse_of_not_frees hfrees hid)
    rw [MapRecord.valueBad, hsel, Bool.true_and]
    simp only [Bool.or_eq_true, Bool.and_eq_true, decide_eq_true_eq, hid, creates_iff, hfrees, not_false_eq_true,
      true_and, or_assoc]

theorem busy_iff_of_frees {e : Entry} (hin : e.inUse = true) (h : r.identity = true ∧ r.inUse = false) :
    r.busy e = true ↔ e.state.underTest = true ∨ (e.state.outOfService = true ∧ r.history = true) := by
  obtain ⟨hid, hno⟩ := h
  simp [MapRecord.busy, MapRecord.removes, hin, hid, hno]

theorem busy_of_free {e : Entry} (hfree : e.inUse = false) : r.busy e = false := by
  simp [MapRecord.busy, MapRecord.removes, MapRecord.moves, MapRecord.changesGroup, hfree]

theorem busy_iff_of_keeps {e : Entry} (h : ¬(r.identity = true ∧ r.inUse = false)) :
    r.busy e = true ↔ e.inUse = true ∧ ((e.state.underTest = true ∧
      ((r.identity = true ∧ (r.line ≠ e.line.val ∨ r.node ≠ e.node)) ∨
        (r.membership = true ∧ r.group ≠ e.group.val) ∨ r.ratings = true)) ∨
      (e.state.outOfService = true ∧ r.history = true)) := by
  cases hin : e.inUse with
  | false => simp [busy_of_free hin]
  | true =>
    cases hid : r.identity with
    | false => simp [MapRecord.busy, MapRecord.removes, MapRecord.moves, MapRecord.changesGroup, hin, hid]
    | true =>
      have hu := inUse_of_not_frees h hid
      simp [MapRecord.busy, MapRecord.removes, MapRecord.moves, MapRecord.changesGroup, hin, hid, hu, or_assoc]

theorem duplicates_of_frees (s : State) (i : EntryId) (h : r.identity = true ∧ r.inUse = false) :
    s.duplicates i r = false := by
  obtain ⟨-, hno⟩ := h
  simp [State.duplicates, hno]

theorem duplicates_iff (s : State) (i : EntryId) (h : ¬(r.identity = true ∧ r.inUse = false)) :
    s.duplicates i r = true ↔ r.identity = true ∧ ∃ j, j ≠ i ∧ (s.entry j).inUse = true ∧
      ((s.entry j).cln = r.cln ∨ ((s.entry j).line.val = r.line ∧ (s.entry j).node = r.node)) := by
  cases hid : r.identity with
  | false => simp [State.duplicates, hid]
  | true =>
    have hu := inUse_of_not_frees h hid
    simp [State.duplicates, hid, hu, allEntries, Entry.clashes]

end Checks

/-! ### What a record in range leaves -/

theorem lineOf_val {n : LineId} {v : Nat} (h : n.val = v) : lineOf v = n := by
  subst h; exact dif_pos n.isLt

theorem groupIdOf_val {g : Fin 32} {v : Nat} (h : g.val = v) : groupIdOf v = g := by
  subst h; exact dif_pos g.isLt

theorem batteryOf_val {c : Fin 16} {v : Nat} (h : c.val = v) : batteryOf v = c := by
  subst h; exact dif_pos c.isLt

theorem roundRated_eq (v : Nat) :
    roundRated v = if v < 30 then 30 else if 240 < v then 240 else v - v % 30 := by
  unfold roundRated
  have : v / 30 * 30 = v - v % 30 := by omega
  rw [this]

/-- A creation with its values in range (R17). -/
theorem created_eq {r : MapRecord} {line : LineId} {group : Fin 32} {battery : Fin 16} (hline : line.val = r.line)
    (hgroup : group.val = r.group) (hbattery : battery.val = r.battery) : r.created =
      { Entry.free with
        inUse := true, cln := r.cln, line := line, node := r.node, group := group, battery := battery,
        rated := roundRated r.rated, locked := r.locked, barred := r.barred, held := r.held, addedAt := r.addedAt,
        lastFunctionEnd := r.lastFunctionEnd, lastDurationEnd := r.lastDurationEnd } := by
  rw [MapRecord.created, lineOf_val hline, groupIdOf_val hgroup, batteryOf_val hbattery]

/-- A change with its selected values in range (R14, R16, R19). -/
theorem changed_eq {r : MapRecord} {e : Entry} {line : LineId} {group : Fin 32} {battery : Fin 16}
    (hline : r.identity = true → line.val = r.line) (hline' : r.identity = false → line = e.line)
    (hgroup : r.membership = true → group.val = r.group) (hgroup' : r.membership = false → group = e.group)
    (hbattery : r.ratings = true → battery.val = r.battery) (hbattery' : r.ratings = false → battery = e.battery) :
    r.changed e =
      { e with
        cln := if r.identity then r.cln else e.cln, line := line
        node := if r.identity then r.node else e.node
        group := group, battery := battery, rated := if r.ratings then roundRated r.rated else e.rated
        locked := if r.flags then r.locked else e.locked, barred := if r.flags then r.barred else e.barred
        held := if r.flags then r.held else e.held
        addedAt := if r.history then r.addedAt else e.addedAt
        lastFunctionEnd := if r.history then r.lastFunctionEnd else e.lastFunctionEnd
        lastDurationEnd := if r.history then r.lastDurationEnd else e.lastDurationEnd
        overdueFunction := e.overdueFunction && !r.history
        overdueDuration := e.overdueDuration && !r.history, touched := false } := by
  have hl : (if r.identity then lineOf r.line else e.line) = line := by
    split
    · next h => exact lineOf_val (hline h)
    · next h => exact (hline' (by simpa using h)).symm
  have hg : (if r.membership then groupIdOf r.group else e.group) = group := by
    split
    · next h => exact groupIdOf_val (hgroup h)
    · next h => exact (hgroup' (by simpa using h)).symm
  have hb : (if r.ratings then batteryOf r.battery else e.battery) = battery := by
    split
    · next h => exact batteryOf_val (hbattery h)
    · next h => exact (hbattery' (by simpa using h)).symm
  have hnoted (b : Bool) : (if r.history then false else b) = (b && !r.history) := by
    cases r.history <;> simp
  simp only [MapRecord.changed, writeHistory_eq, writeFlags_eq, writeRatings_eq, writeMembership_eq,
    writeIdentity_eq, hl, hg, hb, hnoted]

/-! ### The rule of a record -/

section Rule

variable {s : State} {who : Requester} {tb : Table} {taken : Nat} {r : MapRecord}

theorem takeMap_refused {code : MgmtCode} (h : r.index < 240) (hc : s.mapCheck ⟨r.index, h⟩ r = some code) :
    s.takeRecord (.map r) = .error code := by
  refine (dif_pos h).trans ?_
  dsimp only
  rw [hc]

theorem takeMap_taken {e : Entry} (h : r.index < 240) (hc : s.mapCheck ⟨r.index, h⟩ r = none)
    (he : r.applied (s.entry ⟨r.index, h⟩) = e) :
    s.takeRecord (.map r) = .ok { s with entries := s.entries.set (⟨r.index, h⟩ : EntryId) e } := by
  refine (dif_pos h).trans ?_
  dsimp only
  rw [hc, he]
  rfl

theorem mapCheck_badValue {i : EntryId} (h : r.valueBad (s.entry i) = true) : s.mapCheck i r = some .badValue :=
  if_pos h

theorem mapCheck_busy {i : EntryId} (h : r.valueBad (s.entry i) = false) (hb : r.busy (s.entry i) = true) :
    s.mapCheck i r = some .busy := (if_neg (by simp [h])).trans (if_pos hb)

theorem mapCheck_duplicate {i : EntryId} (h : r.valueBad (s.entry i) = false) (hb : r.busy (s.entry i) = false)
    (hd : s.duplicates i r = true) : s.mapCheck i r = some .duplicate :=
  (if_neg (by simp [h])).trans ((if_neg (by simp [hb])).trans (if_pos hd))

end Rule

/-- Settles O46: the checks in their order, then `applied_cases`. -/
theorem mapRecordTaken : Obligations.MapRecordTaken := by
  intro s who tb taken r hw refused leaves rated
  refine ⟨fun hindex => record_refused hw (dif_neg (by omega)), fun h => ?_⟩
  intro i e frees badIdentity creates bad moves busy clash freesBusy
  have refuse {code : MgmtCode} (hc : s.mapCheck i r = some code) : refused code :=
    record_refused hw (takeMap_refused h hc)
  have leave {e' : Entry} (hc : s.mapCheck i r = none) (he : r.applied e = e') : leaves i e' :=
    lastRecord_taken hw (takeMap_taken h hc he)
  have hbad : r.valueBad e = true ↔ bad := valueBad_iff e
  have hgood (hb : ¬bad) : r.valueBad e = false := by rw [← Bool.not_eq_true, hbad]; exact hb
  have hkeeps (hf : ¬frees) : r.busy e = true ↔ busy := busy_iff_of_keeps hf
  have hidle (hf : ¬frees) (hb : ¬busy) : r.busy e = false := by rw [← Bool.not_eq_true, hkeeps hf]; exact hb
  have hdup (hf : ¬frees) : s.duplicates i r = true ↔ r.identity = true ∧ clash := duplicates_iff s i hf
  have hnew (hf : ¬frees) (hc : r.identity = true → ¬clash) : s.duplicates i r = false := by
    rw [← Bool.not_eq_true, hdup hf]; exact fun ⟨hid, hclash⟩ => hc hid hclash
  refine ⟨fun hb => refuse (mapCheck_badValue (hbad.mpr hb)), fun hin hf hb => ?_, fun hf hb hbusy => ?_,
    fun hf hb hbusy hid hclash => ?_, fun hcreate hb hclash line group battery hline hgroup hbattery => ?_,
    fun hin hf hb => ?_, fun hfree hf => ?_, fun hfree hid hb => ?_,
    fun hin hf hb hbusy hclash line group battery hl hl' hg hg' hba hba' => ?_⟩
  · exact refuse (mapCheck_busy (valueBad_of_frees e hf) ((busy_iff_of_frees hin hf).mpr hb))
  · exact refuse (mapCheck_busy (hgood hb) ((hkeeps hf).mpr hbusy))
  · exact refuse (mapCheck_duplicate (hgood hb) (hidle hf hbusy) ((hdup hf).mpr ⟨hid, hclash⟩))
  · have hfree : e.inUse = false := hcreate.1
    have hf : ¬frees := fun ⟨_, hno⟩ => absurd (hcreate.2.2.symm.trans hno) (by decide)
    refine leave (mapCheck_none.mpr ⟨hgood hb, busy_of_free hfree, hnew hf fun _ => hclash⟩) ?_
    have happlied : r.applied e = r.created := by simp [MapRecord.applied, hfree, (creates_iff e).mpr hcreate]
    rw [happlied, created_eq hline hgroup hbattery, roundRated_eq]
  · have hbusy : r.busy e = false := by rw [← Bool.not_eq_true, busy_iff_of_frees hin hf]; exact hb
    refine leave (mapCheck_none.mpr ⟨valueBad_of_frees e hf, hbusy, duplicates_of_frees s i hf⟩) ?_
    simp [MapRecord.applied, MapRecord.removes, hin, hf.1, hf.2]
  · refine leave (mapCheck_none.mpr ⟨valueBad_of_frees e hf, busy_of_free hfree, duplicates_of_frees s i hf⟩) ?_
    simp [MapRecord.applied, MapRecord.creates, hfree, hf.2]
  · have hf : ¬frees := fun ⟨hsel, _⟩ => absurd (hsel.symm.trans hid) (by decide)
    refine leave (mapCheck_none.mpr ⟨hgood hb, busy_of_free hfree, hnew hf fun h => by rw [hid] at h; cases h⟩) ?_
    simp [MapRecord.applied, MapRecord.creates, hfree, hid]
  · have hkept : r.removes e = false := by
      rw [← Bool.not_eq_true]
      intro hrem
      simp only [MapRecord.removes, Bool.and_eq_true, Bool.not_eq_true'] at hrem
      exact hf ⟨hrem.1.2, hrem.2⟩
    refine leave (mapCheck_none.mpr ⟨hgood hb, hidle hf hbusy, hnew hf hclash⟩) ?_
    have happlied : r.applied e = r.changed e := by simp [MapRecord.applied, hin, hkept]
    rw [happlied, changed_eq hl hl' hg hg' hba hba', roundRated_eq]

end Sys2Proof.MapRecords
end

section
/-! Management requests and records as bytes, and the taking and reading of requests (R20, R35, R46, R51, R111, R115,
R145, R154, R168 to R173, sections 12.3 and 12.4). -/

namespace Sys2Proof.ManagementBytes

open Sys2Proof Sys2Proof.Machine Sys2Proof.Machine.Safety Sys2Proof.Laws Sys2Proof.DeviceLaws
  Sys2Proof.ManagementRequests Sys2Proof.BridgeControls

/-! ### Written records (section 12.4) -/

theorem tableCodes : TableCodes := by
  refine ⟨rfl, fun k h => ?_⟩
  unfold Table.ofCode
  split
  case h_9 => rfl
  all_goals omega

theorem yesAt_eq (b : List Byte) (off : Nat) : yesAt b off = decide (byteAt b off ≠ 0) := by
  unfold yesAt
  rw [Bool.eq_iff_iff]
  simp

/-- A time field as sent, read back (section 12). -/
theorem timeAt_sent {b : List Byte} {off t : Nat} {p : Byte} (front back : List Byte)
    (e : b = front ++ (p :: beBytes 4 t ++ back)) (hl : front.length = off) (h : t < 4294967296) :
    timeAt b off = timeOf p t := by
  subst e
  have hp : byteAt (front ++ (p :: beBytes 4 t ++ back)) off = p := byteAt_front 0 hl
  have ht : natAt (front ++ (p :: beBytes 4 t ++ back)) (off + 1) 4 = t :=
    natAt_front (front ++ [p]) back (by simp) (by simp [hl]) h
  unfold timeAt timeOf yesAt
  rw [hp, ht]
  simp

theorem mapWriteForm : MapWriteForm := by
  intro index select inUse line node group battery rated flags p1 p2 p3 cln t1 t2 t3 hcln h1 h2 h3
  generalize hb : [index, select, inUse] ++ beBytes 4 cln ++ [line, node, group, battery, rated, flags] ++
    p1 :: beBytes 4 t1 ++ p2 :: beBytes 4 t2 ++ p3 :: beBytes 4 t3 = b
  have hc : natAt b 3 4 = cln := natAt_front [index, select, inUse] _ hb.symm rfl hcln
  have ht1 : timeAt b 13 = timeOf p1 t1 := timeAt_sent
    ([index, select, inUse] ++ beBytes 4 cln ++ [line, node, group, battery, rated, flags]) _ hb.symm rfl h1
  have ht2 : timeAt b 18 = timeOf p2 t2 := timeAt_sent
    ([index, select, inUse] ++ beBytes 4 cln ++ [line, node, group, battery, rated, flags] ++ p1 :: beBytes 4 t1) _
    (by rw [← hb]; simp; rfl) rfl h2
  have ht3 : timeAt b 23 = timeOf p3 t3 := timeAt_sent
    ([index, select, inUse] ++ beBytes 4 cln ++ [line, node, group, battery, rated, flags] ++ p1 :: beBytes 4 t1 ++
      p2 :: beBytes 4 t2) [] (by rw [← hb]; simp) rfl h3
  simp only [parseRecord, parseMap, natAt_one, yesAt_eq, bitAt, hc, ht1, ht2, ht3]
  subst hb
  rfl

theorem calendarWriteForm (row written : Byte) (masks : Vector Byte 48) :
    parseRecord .calendar (row :: written :: masks.toList) = .calendar { row := row.toNat, masks := masks } := by
  have hmasks : (Vector.ofFn fun k : Fin 48 => byteAt (row :: written :: masks.toList) (2 + k.val)) = masks := by
    refine Vector.ext fun k hk => ?_
    simp [byteAt, Nat.add_comm 2 k, hk]
  simp only [parseRecord, parseCalendar, natAt_one, hmasks]
  rfl

theorem tableWriteForms : TableWriteForms := by
  refine ⟨fun index quota weight occupancy fi ft dt hours n o q di hdi => ?_, calendarWriteForm,
    fun start stop classes hstart hstop => ?_, fun battery v hv => ?_, fun k halt => ?_,
    fun line window attempts period hp => ?_,
    fun index enable interval grace attempts base debounce mode strap holdOff type report station mask hh hm => ?_⟩
  · generalize hb : [index, quota, weight, occupancy, fi, ft] ++ beBytes 2 di ++ [dt, hours, n, o, q] = b
    have h2 : natAt b 6 2 = di := natAt_front [index, quota, weight, occupancy, fi, ft] _ hb.symm rfl hdi
    simp only [parseRecord, parseGroup, natAt_one, h2]
    subst hb
    rfl
  · generalize hb : beBytes 4 start ++ beBytes 4 stop ++ [classes] = b
    have h1 : natAt b 0 4 = start := natAt_front [] _ hb.symm rfl hstart
    have h2 : natAt b 4 4 = stop := natAt_front (beBytes 4 start) _ hb.symm rfl hstop
    simp only [parseRecord, parseBlackout, h1, h2]
    subst hb
    rfl
  · have h2 : natAt (battery :: beBytes 2 v) 1 2 = v := natAt_front [battery] [] rfl rfl hv
    simp only [parseRecord, natAt_one, h2]
    rfl
  · simp only [parseRecord, natAt_one, yesAt_eq]
    rfl
  · have h2 : natAt ([line, window, attempts] ++ beBytes 2 period) 3 2 = period :=
      natAt_front [line, window, attempts] [] rfl rfl hp
    simp only [parseRecord, parseLine, natAt_one, h2]
    rfl
  · generalize hb : [index, enable, interval, grace, attempts, base, debounce] ++ beBytes 2 holdOff ++
      beBytes 2 type.toNat ++ [mode] ++ beBytes 6 report.toNat ++ beBytes 2 mask ++ [strap] ++
      beBytes 6 station.toNat = b
    have h1 : natAt b 7 2 = holdOff :=
      natAt_front [index, enable, interval, grace, attempts, base, debounce] _ hb.symm rfl hh
    have h2 : natAt b 9 2 = type.toNat := natAt_front
      ([index, enable, interval, grace, attempts, base, debounce] ++ beBytes 2 holdOff) _ hb.symm rfl type.isLt
    have h3 : natAt b 12 6 = report.toNat := natAt_front
      ([index, enable, interval, grace, attempts, base, debounce] ++ beBytes 2 holdOff ++ beBytes 2 type.toNat ++ [mode])
      _ hb.symm rfl report.isLt
    have h4 : natAt b 18 2 = mask := natAt_front
      ([index, enable, interval, grace, attempts, base, debounce] ++ beBytes 2 holdOff ++ beBytes 2 type.toNat ++
        [mode] ++ beBytes 6 report.toNat) _ hb.symm rfl hm
    simp only [parseRecord, parseBridge, natAt_one, yesAt_eq, h1, h2, h3, h4, BitVec.ofNat_toNat, BitVec.setWidth_eq]
    subst hb
    rfl

/-! ### The records of a WRITE_TABLE (R172) -/

theorem parseRecords_length (t : Table) (n : Nat) (b : List Byte) : (parseRecords t n b).length = n := by
  induction n generalizing b with
  | zero => rfl
  | succ n ih => rw [parseRecords, List.length_cons, ih]

theorem parseRecords_get (t : Table) {n k : Nat} (b : List Byte) (h : k < n) :
    (parseRecords t n b)[k]? =
      some (parseRecord t ((b.drop (k * t.writeLength)).take t.writeLength)) := by
  induction n generalizing b k with
  | zero => omega
  | succ n ih =>
    cases k with
    | zero => simp [parseRecords]
    | succ k =>
      rw [parseRecords, List.getElem?_cons_succ, ih _ (by omega), List.drop_drop]
      congr 4
      rw [Nat.succ_mul, Nat.add_comm]

theorem recordLengths_get {code : Nat} {t : Table} (h : Table.ofCode code = some t) :
    recordLengths[code]? = some t.writeLength := by
  unfold Table.ofCode at h
  split at h
  all_goals cases h
  all_goals rfl

theorem parseMgmt_writeTable (table count : Byte) (bytes : List Byte) :
    parseMgmt (2 :: table :: count :: bytes) =
      some (.writeTable table (parseWrite (2 :: table :: count :: bytes))) := rfl

theorem parseWrite_known {table count : Byte} {bytes : List Byte} {t : Table}
    (h : Table.ofCode table.toNat = some t) :
    parseWrite (2 :: table :: count :: bytes) = parseRecords t count.toNat bytes := by
  unfold parseWrite
  rw [natAt_one, natAt_one]
  change (match Table.ofCode table.toNat with
    | some t => parseRecords t count.toNat bytes
    | none => []) = _
  rw [h]

theorem parseWrite_unknown {table count : Byte} {bytes : List Byte} (h : Table.ofCode table.toNat = none) :
    parseWrite (2 :: table :: count :: bytes) = [] := by
  unfold parseWrite
  rw [natAt_one, natAt_one]
  change (match Table.ofCode table.toNat with
    | some t => parseRecords t count.toNat bytes
    | none => []) = _
  rw [h]

/-! ### The requests by their codes (section 12.3) -/

theorem parseMgmt_unknown {code : Byte} (rest : List Byte)
    (h : code.toNat ∉ [1, 2, 3, 4, 16, 17, 18, 19, 20, 21, 22, 23, 24, 25, 26, 27, 28]) :
    parseMgmt (code :: rest) = none := by
  have hcode : natAt (code :: rest) 0 1 = code.toNat := natAt_one _ 0
  unfold parseMgmt
  rw [hcode]
  simp only [List.mem_cons, List.not_mem_nil, or_false, not_or] at h
  split
  case h_18 => rfl
  all_goals omega

theorem parseMgmt_setClock_bytes {m : Nat} (h : m < 4294967296) :
    parseMgmt (3 :: beBytes 4 m) = some (.setClock m) := by
  have hm : natAt (3 :: beBytes 4 m) 1 4 = m := natAt_front [3] [] rfl rfl h
  exact congrArg (fun k => some (MgmtRequest.setClock k)) hm

theorem parseMgmt_armCapture_bytes {target : Nat} (mode action : Byte) (h : target < 4294967296) :
    parseMgmt (22 :: (beBytes 4 target ++ [mode, action])) = some (.armCapture target mode action) := by
  have ht : natAt (22 :: (beBytes 4 target ++ [mode, action])) 1 4 = target := natAt_front [22] _ rfl rfl h
  exact congrArg (fun k => some (MgmtRequest.armCapture k mode action)) ht

theorem parseMgmt_clearEvents_bytes {set : Nat} (h : set < 65536) :
    parseMgmt (28 :: beBytes 2 set) = some (.clearEvents (BitVec.ofNat 14 set)) := by
  have hs : natAt (28 :: beBytes 2 set) 1 2 = set := natAt_front [28] [] rfl rfl h
  exact congrArg (fun k => some (MgmtRequest.clearEvents (BitVec.ofNat 14 k))) hs

theorem parseMgmt_readStatus_bytes (take : Byte) :
    parseMgmt [4, take] = some (.readStatus (decide (take ≠ 0))) :=
  congrArg (fun b => some (MgmtRequest.readStatus b)) (yesAt_eq [4, take] 1)

/-- A request whose one parameter is a byte. -/
theorem parseMgmt_index (k : Byte) : parseMgmt [18, k] = some (.clearFault k.toNat) ∧
    parseMgmt [19, k] = some (.setHold k.toNat) ∧ parseMgmt [20, k] = some (.clearHold k.toNat) ∧
    parseMgmt [21, k] = some (.clearTouched k.toNat) ∧ parseMgmt [24, k] = some (.lineAbort k.toNat) ∧
    parseMgmt [25, k] = some (.lineReset k.toNat) := by
  have hk (c : Byte) : natAt [c, k] 1 1 = k.toNat := natAt_one _ 1
  exact ⟨congrArg (fun v => some (MgmtRequest.clearFault v)) (hk 18),
    congrArg (fun v => some (MgmtRequest.setHold v)) (hk 19),
    congrArg (fun v => some (MgmtRequest.clearHold v)) (hk 20),
    congrArg (fun v => some (MgmtRequest.clearTouched v)) (hk 21),
    congrArg (fun v => some (MgmtRequest.lineAbort v)) (hk 24),
    congrArg (fun v => some (MgmtRequest.lineReset v)) (hk 25)⟩

theorem parseMgmt_readTable_bytes (table first count : Byte) :
    parseMgmt [1, table, first, count] = some (.readTable table first.toNat count.toNat) := by
  have h1 : natAt [1, table, first, count] 2 1 = first.toNat := natAt_one _ 2
  have h2 : natAt [1, table, first, count] 3 1 = count.toNat := natAt_one _ 3
  change some (MgmtRequest.readTable table (natAt [1, table, first, count] 2 1)
    (natAt [1, table, first, count] 3 1)) = _
  rw [h1, h2]

/-! ### Taking a request (R154, R168) -/

theorem isMgmt_iff (f : Frame) : f.isMgmt = true ↔ f.kind = .mgmtRequest := by
  simp [Frame.isMgmt]

theorem mgmtTake_busy {s : State} (h : s.mgmt ≠ .idle) : s.mgmtTake = s := by
  refine if_neg fun hidle => h ?_
  unfold MgmtState.isIdle at hidle
  split at hidle
  · next heq => exact heq
  · cases hidle

/-- The IDLE engine takes the oldest MGMT request. -/
theorem mgmtTake_oldest {s : State} {before after : List Frame} {f : Frame} (hidle : s.mgmt = .idle)
    (hrx : s.rx = before ++ f :: after) (hbefore : ∀ g ∈ before, g.kind ≠ .mgmtRequest)
    (hf : f.kind = .mgmtRequest) : s.mgmtTake = s.mgmtTakeFrame f ∧ s.rx.eraseP Frame.isMgmt = before ++ after := by
  have hfalse : ∀ g ∈ before, g.isMgmt = false := fun g hg => by
    rw [← Bool.not_eq_true, isMgmt_iff]; exact hbefore g hg
  obtain ⟨hfind, herase⟩ := find_eraseP_split (after := after) hfalse ((isMgmt_iff f).mpr hf)
  rw [← hrx] at hfind herase
  refine ⟨?_, herase⟩
  unfold State.mgmtTake
  rw [hidle, hfind]
  rfl

/-- Settles O41: the forms above, and the engine's take. -/
theorem mgmtRequestTaken : Obligations.MgmtRequestTaken := by
  refine ⟨⟨parseMgmt_readTable_bytes, fun table count bytes => ⟨_, parseMgmt_writeTable table count bytes, ?_, ?_⟩,
    fun m hm => parseMgmt_setClock_bytes hm, parseMgmt_readStatus_bytes, ⟨rfl, rfl, rfl, rfl, rfl⟩, parseMgmt_index,
    fun target mode action h => parseMgmt_armCapture_bytes mode action h, fun set h => parseMgmt_clearEvents_bytes h,
    fun code rest h => parseMgmt_unknown rest h, tableCodes, mapWriteForm, tableWriteForms⟩, fun s => ⟨?_, ?_⟩⟩
  · exact fun h => parseWrite_unknown h
  · intro tb length htb hlength
    rw [recordLengths_get htb, Option.some_inj] at hlength
    subst hlength
    rw [parseWrite_known htb]
    exact ⟨parseRecords_length _ _ _, fun k hk => parseRecords_get tb bytes hk⟩
  · exact fun h => congrArg Host.Outcome.next (mgmtTake_busy h)
  · intro before f after hidle hrx hbefore hf
    obtain ⟨htake, herase⟩ := mgmtTake_oldest hidle hrx hbefore hf
    have hexec : exec .mgmtRequestTake s = .next (s.mgmtTakeFrame f) := congrArg Host.Outcome.next htake
    unfold State.mgmtTakeFrame at hexec
    rw [herase] at hexec
    refine ⟨fun r hr => ?_, fun hr => ?_⟩
    · rw [hr] at hexec
      exact hexec
    · rw [hr] at hexec
      exact ⟨_, hexec, finish_answered { s with rx := before ++ after } f.requester _ .badValue []⟩

/-! ### READ_TABLE (R171) -/

/-- Settles O42: `readBegin` by its checks, `readOne` by what is left. -/
theorem readTable : Obligations.ReadTable := by
  refine ⟨codeTables, fun s who => ⟨readForms s, fun table first count h => ?_, fun tb next left got h => ?_⟩⟩
  · have hexec : exec .readTable s = .next (s.readBegin who table first count) := by
      change Host.Outcome.next s.readStep = _
      rw [State.readStep, h]
    unfold State.readBegin at hexec
    refine ⟨fun hnone => ?_, fun tb htb => ⟨fun hbeyond => ?_, ?_, fun hfirst hzero => ?_, fun hfirst hpos hne => ?_⟩⟩
    · rw [hnone] at hexec
      exact ⟨_, hexec, finish_answered s who 1 .unknownTable _⟩
    · rw [htb] at hexec
      dsimp only at hexec
      rw [if_pos hbeyond] at hexec
      exact ⟨_, hexec, finish_answered s who 1 .indexRange _⟩
    · rintro rfl hfirst
      rw [htb] at hexec
      dsimp only at hexec
      rw [if_neg (by simp only [Table.size]; omega)] at hexec
      exact ⟨_, hexec, finish_answered s who 1 .ok _⟩
    · subst hzero
      rw [htb] at hexec
      dsimp only at hexec
      rw [if_neg (by omega)] at hexec
      simp only [Nat.zero_min, State.blackoutRead, List.take_zero, List.map_nil, if_true] at hexec
      cases tb <;> exact ⟨_, hexec, finish_answered s who 1 .ok _⟩
    · rw [htb] at hexec
      dsimp only at hexec
      rw [if_neg (by omega)] at hexec
      cases tb
      case blackout => exact absurd rfl hne
      all_goals
        dsimp only at hexec
        rwa [if_neg (by omega)] at hexec
  · have hexec : exec .readTable s = .next (s.readOne who tb next left got) := by
      change Host.Outcome.next s.readStep = _
      rw [State.readStep, h]
    unfold State.readOne at hexec
    refine ⟨fun hleft => ?_, fun hleft => ?_⟩
    · rw [if_neg (by omega)] at hexec
      exact hexec
    · rw [if_pos (by omega)] at hexec
      refine ⟨_, hexec, ?_⟩
      have hfields : readFields (byteOf tb.code) (got ++ [s.readRecord tb next]) =
          byteOf tb.code :: byteOf (got.length + 1) :: (got ++ [s.readRecord tb next]).flatten := by
        simp [readFields]
      rw [hfields]
      exact finish_answered s who 1 .ok _

end Sys2Proof.ManagementBytes
end

section
/-! The course of an image save, and records read and written back (R14, R20, R24, R35, R44, R48, R51, R111, R115,
R145, R173, R177 to R179). -/

namespace Sys2Proof.ImageAndRecords

open Sys2Proof Sys2Proof.Machine Sys2Proof.Machine.Safety Sys2Proof.Laws Sys2Proof.DeviceLaws
  Sys2Proof.ManagementRequests Sys2Proof.BridgeControls Sys2Proof.MapRecords Sys2Proof.ManagementBytes

/-! ### The order of a save (R178) -/

theorem saveOrder_row (row : Fin 7) : saveOrder[5 + row.val]? = some (.calendar row) := by
  match row with
  | ⟨0, _⟩ | ⟨1, _⟩ | ⟨2, _⟩ | ⟨3, _⟩ | ⟨4, _⟩ | ⟨5, _⟩ | ⟨6, _⟩ => rfl

theorem saveOrder_map (i : EntryId) : saveOrder[13 + i.val]? = some (.map i) := by
  unfold saveOrder
  rw [List.getElem?_append_right (by simp)]
  have hi : (List.finRange 240)[i.val]? = some i := by simp
  have hfront : ([SaveItem.bridge, .line, .policy, .criteria, .group] ++ (List.finRange 7).map SaveItem.calendar ++
      [SaveItem.blackout]).length = 13 := by simp
  rw [hfront, List.getElem?_map, Nat.add_sub_cancel_left, hi]
  rfl

theorem saveOrder_length : saveOrder.length = 253 := by simp [saveOrder]

/-- Each item is followed by the next of the order. -/
theorem saveOrder_next {k : Nat} {item : SaveItem} (h : saveOrder[k]? = some item) :
    item.next = saveOrder[k + 1]? := by
  have hk : k < 253 := by
    have := (List.getElem?_eq_some_iff.mp h).1
    rwa [saveOrder_length] at this
  rcases Nat.lt_or_ge k 5 with hlow | hlow
  · have hrow : k = 0 ∨ k = 1 ∨ k = 2 ∨ k = 3 ∨ k = 4 := by omega
    rcases hrow with rfl | rfl | rfl | rfl | rfl <;> cases h <;> rfl
  · rcases Nat.lt_or_ge k 13 with hmid | hmid
    · have hrow : k = 5 ∨ k = 6 ∨ k = 7 ∨ k = 8 ∨ k = 9 ∨ k = 10 ∨ k = 11 ∨ k = 12 := by omega
      rcases hrow with rfl | rfl | rfl | rfl | rfl | rfl | rfl | rfl <;> cases h <;> rfl
    · obtain ⟨j, rfl⟩ := Nat.exists_eq_add_of_le hmid
      have hj : j < 240 := by omega
      have hitem : item = .map ⟨j, hj⟩ := Option.some.inj (h.symm.trans (saveOrder_map ⟨j, hj⟩))
      subst hitem
      rcases Nat.lt_or_ge (j + 1) 240 with hnext | hlast
      · exact (dif_pos hnext).trans (saveOrder_map ⟨j + 1, hnext⟩).symm
      · refine (dif_neg (Nat.not_lt.mpr hlast)).trans ?_
        exact (List.getElem?_eq_none (by rw [saveOrder_length]; omega)).symm

/-! ### What an image holds of each item (R178) -/

theorem tableRecords_eq (s : State) (t : Table) : s.tableRecords t =
    [byteOf t.code, byteOf t.size] ++ (List.range t.size).flatMap (s.readRecord t) := rfl

theorem bridgeItem (s : State) : s.itemBytes .bridge = [8, 1] ++ s.readRecord .bridge 0 := by
  change s.tableRecords .bridge = _
  rw [tableRecords_eq]
  simp only [Table.size, List.range_one, List.flatMap_singleton]
  rfl

/-- A GROUP record of an image is the read record with the three counts at 0. -/
theorem groupItem (s : State) : s.itemBytes .group =
    [2, 32] ++ (List.range 32).flatMap fun k => (s.readRecord .group k).take 10 ++ [0, 0, 0] := by
  change [2, 32] ++ _ = _
  refine congrArg _ (flatMap_finRange _ _ fun g => ?_)
  have hread : s.readRecord .group g.val = (s.group g).record g.val (s.members g) (s.outOfService g) (s.quota g) :=
    dif_pos g.isLt
  rw [hread]
  simp [GroupSettings.record, beBytes_two, byteOf]

theorem calendarItem (s : State) (row : Fin 7) : s.itemBytes (.calendar row) = (if row = 0 then [3, 7] else []) ++
    [byteOf row.val, Config.fillByte 1] ++ s.rows[row].masks.toList := by
  simp only [State.itemBytes, CalendarRow.record, tableHead, Table.code, List.append_assoc]
  rfl

theorem readRecord_map (s : State) (i : EntryId) : s.readRecord .map i.val = (s.entry i).readRecord i :=
  dif_pos i.isLt

theorem length_stateField (st : EntryState) : ([byteOf st.code] ++ testField st.test ++ beBytes 2 st.rechargeLeft ++
    beBytes 2 st.retryLeft).length = 20 := by
  cases h : st.test <;> simp [testField]

theorem readRecord_split (e : Entry) (i : EntryId) : e.readRecord i = e.writtenPart i ++
    (([byteOf e.state.code] ++ testField e.state.test ++ beBytes 2 e.state.rechargeLeft ++
      beBytes 2 e.state.retryLeft) ++ e.historyPart) := by
  simp only [Entry.readRecord, List.append_assoc]

theorem readRecord_take (e : Entry) (i : EntryId) : (e.readRecord i).take 28 = e.writtenPart i := by
  rw [readRecord_split, ← length_writtenPart e i, List.take_left]

theorem readRecord_drop (e : Entry) (i : EntryId) : (e.readRecord i).drop 48 = e.historyPart := by
  have h48 : 48 = (e.writtenPart i ++ ([byteOf e.state.code] ++ testField e.state.test ++
      beBytes 2 e.state.rechargeLeft ++ beBytes 2 e.state.retryLeft)).length := by
    rw [List.length_append, length_writtenPart, length_stateField]
  rw [readRecord_split, ← List.append_assoc, h48, List.drop_left]

theorem mapItem (s : State) (i : EntryId) : s.itemBytes (.map i) = (if i = 0 then [1, 240] else []) ++
    (s.readRecord .map i.val).take 28 ++ [if (s.entry i).state = .faulted then 6 else 0] ++ List.replicate 19 0 ++
      (s.readRecord .map i.val).drop 48 := by
  rw [readRecord_map, readRecord_take, readRecord_drop]
  simp only [State.itemBytes, Entry.imageRecord, List.append_assoc]
  rfl

theorem imageItems (s : State) : ImageItems s :=
  ⟨bridgeItem s, tableRecords_eq s .line, tableRecords_eq s .policy, tableRecords_eq s .criteria, groupItem s,
    fun row => ⟨_, calendarItem s row⟩, rfl, mapItem s⟩

/-! ### The course of a save (R177, R179) -/

theorem flashTimeout_eq {s : State} (h : s.save = some .erasing ∨ s.save = some .header ∨
    (∃ b i, s.save = some (.writing b i)) ∨ ∃ b, s.save = some (.crc b)) : s.flashTimeout = s.saveEnd .imageFault := by
  unfold State.flashTimeout
  rcases h with h | h | ⟨b, i, h⟩ | ⟨b, h⟩
  · rw [h]
  · rw [h]
  · rw [h]
  · rw [h]

/-- Settles O49: `flashDone` and `flashTimeout` phase by phase. -/
theorem imageSave : Obligations.ImageSave := by
  refine ⟨⟨rfl, fun k item h => saveOrder_next h⟩, fun s => ⟨imageItems s, fun who h => ⟨fun hbusy => ?_, fun hfree => ?_⟩,
    fun item h => ?_, fun back h => ?_, fun back h => ?_, fun back bytes next h => ?_, fun back bytes h => ?_,
    fun back crc h => ?_, fun h => ?_⟩⟩
  · refine ⟨_, saveImage_eq h, ?_⟩
    rw [State.saveImage, if_pos (imageBusy_iff.mpr hbusy)]
    exact finish_answered s who 27 .imageBusy []
  · refine ⟨_, saveImage_eq h, ?_⟩
    rw [State.saveImage, if_neg (by rw [imageBusy_iff]; exact Classical.not_not.mpr hfree)]
    exact finish_answered _ who 27 .ok []
  · change Host.Outcome.next s.saveRead = _
    rw [State.saveRead, h]
  · change Host.Outcome.next (s.flashDone back) = _
    rw [State.flashDone, h]
  · change Host.Outcome.next (s.flashDone back) = _
    rw [State.flashDone, h]
    rfl
  · intro image
    have himage : appendContent s.flash bytes = image := by
      simp only [appendContent, imageHeader, List.length_append, List.append_assoc, image]
      rfl
    change Host.Outcome.next (s.flashDone back) = _
    unfold State.flashDone
    cases next with
    | none => rw [h]; dsimp only; rw [himage]; rfl
    | some item => rw [h]; dsimp only; rw [himage]
  · change Host.Outcome.next (s.flashDone back) = _
    rw [State.flashDone, h]
  · refine ⟨_, congrArg Host.Outcome.next (flashDone_readBack s crc back h), raise_onlyFlags _ _, fun hagree => ?_,
      fun hdiffer => ?_⟩
    · have : readBackAgrees back crc = true := beq_iff_eq.mpr hagree
      rw [this, State.saveEnd]
      exact raise_flag_self _ _
    · have : readBackAgrees back crc = false := beq_eq_false_iff_ne.mpr hdiffer
      rw [this, State.saveEnd]
      exact raise_flag_self _ _
  · exact ⟨_, congrArg Host.Outcome.next (flashTimeout_eq h), raise_onlyFlags _ _, raise_flag_self _ _⟩

/-! ### Records read and written back (section 12.4) -/

section WriteBack

variable {s : State}

/-- A record that loads onto the present state is taken to the same effect. -/
theorem takeRecord_of_load {t : Table} {b : List Byte} {s' : State} (ht : t ≠ .map)
    (h : s.loadRecord t b = some s') : s.takeRecord (parseRecord t b) = .ok s' := by
  unfold State.loadRecord at h
  split at h
  · exact absurd rfl ht
  · split at h
    · next heq => rw [heq, Option.some.inj h]
    · cases h

theorem groupWritesBack (h : TablesInRange s) (g : Fin 32) :
    (s.readRecord .group g.val).length = 13 ∧
      s.takeRecord (parseRecord .group (s.readRecord .group g.val)) = .ok s := by
  obtain ⟨hgroup, -⟩ := h
  have hread : s.readRecord .group g.val = (s.group g).record g.val (s.members g) (s.outOfService g) (s.quota g) :=
    dif_pos g.isLt
  have hload := loadRecord_group s s g (s.members g) (s.outOfService g) (s.quota g) (hgroup g)
  rw [← hread] at hload
  refine ⟨by rw [hread]; simp [GroupSettings.record], (takeRecord_of_load Table.noConfusion hload).trans ?_⟩
  have hset : s.groups.set g (s.group g) = s.groups := Vector.set_getElem_self g.isLt
  rw [hset]

theorem criteriaWritesBack (h : TablesInRange s) (c : Fin 16) :
    (s.readRecord .criteria c.val).length = 3 ∧
      s.takeRecord (parseRecord .criteria (s.readRecord .criteria c.val)) = .ok s := by
  obtain ⟨-, -, hcriteria, -⟩ := h
  have hread : s.readRecord .criteria c.val = byteOf c.val :: beBytes 2 s.criteria[c] := dif_pos c.isLt
  refine ⟨by rw [hread]; simp,
    (takeRecord_of_load Table.noConfusion (loadRecord_criteria s s c (hcriteria c))).trans ?_⟩
  have hset : s.criteria.set c s.criteria[c] = s.criteria := Vector.set_getElem_self c.isLt
  rw [hset]

theorem policyWritesBack (k : Fin 8) : (s.readRecord .policy k.val).length = 2 ∧
    s.takeRecord (parseRecord .policy (s.readRecord .policy k.val)) = .ok s := by
  have hread : s.readRecord .policy k.val = [byteOf k.val, boolByte s.policy[k]] := dif_pos k.isLt
  refine ⟨by rw [hread]; rfl, (takeRecord_of_load Table.noConfusion (loadRecord_policy s s k)).trans ?_⟩
  have hset : s.policy.set k s.policy[k] = s.policy := Vector.set_getElem_self k.isLt
  rw [hset]

theorem lineWritesBack (h : TablesInRange s) (n : LineId) : (s.readRecord .line n.val).length = 5 ∧
    s.takeRecord (parseRecord .line (s.readRecord .line n.val)) = .ok s := by
  obtain ⟨-, hline, -⟩ := h
  have hread : s.readRecord .line n.val = (s.line n).settings.record n.val := dif_pos n.isLt
  refine ⟨by rw [hread]; simp [LineSettings.record],
    (takeRecord_of_load Table.noConfusion (loadRecord_line s s n (hline n))).trans ?_⟩
  have hset : s.setLine n { s.line n with settings := (s.line n).settings } = s := by
    have hlines : s.lines.set n (s.line n) = s.lines := Vector.set_getElem_self n.isLt
    exact congrArg (fun l => { s with lines := l }) hlines
  rw [hset]

theorem calendarWritesBack (row : Fin 7) : (s.readRecord .calendar row.val).length = 50 ∧
    s.takeRecord (parseRecord .calendar (s.readRecord .calendar row.val)) =
      .ok { s with rows := s.rows.set row { s.rows[row] with written := true } } := by
  have hread : s.readRecord .calendar row.val = s.rows[row].record row.val (boolByte s.rows[row].written) :=
    dif_pos row.isLt
  refine ⟨by rw [hread]; simp [CalendarRow.record], takeRecord_of_load Table.noConfusion ?_⟩
  rw [hread]
  exact loadRecord_calendar s s row _

/-- A read record of BRIDGE, read as a written one. -/
theorem parse_bridgeRecord (h : settingsOk s.settings) : parseRecord .bridge (s.readRecord .bridge 0) = .bridge
    { index := 0, schedulerEnable := s.settings.schedulerEnable, passInterval := s.settings.passInterval,
      grace := s.settings.grace, maxAttempts := s.settings.maxAttempts, backoffBase := s.settings.backoffBase,
      debounce := s.settings.debounce, holdOff := s.settings.holdOff, lightingType := s.settings.lightingType,
      filterMode := s.settings.filterMode.val, reportAddress := s.settings.reportAddress,
      notifyMask := s.settings.notifyMask } := by
  obtain ⟨-, -, -, -, -, -, hform⟩ := tableWriteForms
  unfold settingsOk at h
  have hmode := s.settings.filterMode.isLt
  have hmask : s.settings.notifyMask.toNat < 65536 := by have := s.settings.notifyMask.isLt; omega
  have hyes : decide (boolByte s.settings.schedulerEnable ≠ 0) = s.settings.schedulerEnable := by
    cases s.settings.schedulerEnable <;> rfl
  refine (hform 0 (boolByte s.settings.schedulerEnable) (byteOf s.settings.passInterval) (byteOf s.settings.grace)
    (byteOf s.settings.maxAttempts) (byteOf s.settings.backoffBase) (byteOf s.settings.debounce)
    (byteOf s.settings.filterMode.val) s.strap s.settings.holdOff s.settings.lightingType s.settings.reportAddress
    s.stationAddress s.settings.notifyMask.toNat (by omega) hmask).trans ?_
  rw [hyes, toNat_byteOf (by omega), toNat_byteOf (by omega), toNat_byteOf (by omega), toNat_byteOf (by omega),
    toNat_byteOf (by omega), toNat_byteOf (by omega), BitVec.ofNat_toNat, BitVec.setWidth_eq]
  rfl

/-- A BRIDGE record of the present settings stores them again. -/
theorem bridgeSettings_kept (h : settingsOk s.settings) : BridgeRecord.settings
    { index := 0, schedulerEnable := s.settings.schedulerEnable, passInterval := s.settings.passInterval,
      grace := s.settings.grace, maxAttempts := s.settings.maxAttempts, backoffBase := s.settings.backoffBase,
      debounce := s.settings.debounce, holdOff := s.settings.holdOff, lightingType := s.settings.lightingType,
      filterMode := s.settings.filterMode.val, reportAddress := s.settings.reportAddress,
      notifyMask := s.settings.notifyMask } s.settings.filterMode = s.settings := by
  unfold settingsOk at h
  have hclamp {lo hi v : Nat} (h1 : lo ≤ v) (h2 : v ≤ hi) : clamp lo hi v = v := by unfold clamp; omega
  simp only [BridgeRecord.settings]
  rw [hclamp (by omega) (by omega), hclamp (by omega) (by omega), hclamp (by omega) (by omega),
    hclamp (by omega) (by omega), hclamp (by omega) (by omega), Nat.min_eq_left (by omega)]

theorem endIfUnarmed_self (h : s.armed = true ∨ (s.passState = .idle ∧ s.plan = [])) : s.endIfUnarmed = s := by
  unfold State.endIfUnarmed
  split
  · rfl
  · next hn =>
    obtain ⟨hp, hl⟩ := h.resolve_left (by simpa using hn)
    rw [State.endPass, ← hp, ← hl]

theorem dropNotice_self (h : s.settings.reportAddress ≠ 0 ∨ (s.noticePending = false ∧ s.noticeOwed = false)) :
    s.dropNotice = s := by
  unfold State.dropNotice
  split
  · next hz =>
    obtain ⟨hp, ho⟩ := h.resolve_left (Classical.not_not.mpr hz)
    obtain ⟨⟩ := s
    simp only at hp ho
    rw [hp, ho]
  · rfl

theorem bridgeWritesBack (h : TablesInRange s) (hpass : s.armed = true ∨ (s.passState = .idle ∧ s.plan = []))
    (hnotice : s.settings.reportAddress ≠ 0 ∨ (s.noticePending = false ∧ s.noticeOwed = false)) :
    (s.readRecord .bridge 0).length = 27 ∧
      s.takeRecord (parseRecord .bridge (s.readRecord .bridge 0)) = .ok s := by
  obtain ⟨-, -, -, hset, -⟩ := h
  refine ⟨by simp [State.readRecord, State.bridgeRecord], ?_⟩
  rw [parse_bridgeRecord hset]
  change s.takeBridge _ = _
  have htype : ¬s.settings.lightingType.toNat < 0x0600 := by unfold settingsOk at hset; omega
  rw [State.takeBridge, if_neg (by simp), if_neg htype, dif_pos s.settings.filterMode.isLt]
  rw [show BridgeRecord.settings _ (⟨s.settings.filterMode.val, s.settings.filterMode.isLt⟩ : Fin 4) = s.settings from
    bridgeSettings_kept hset, endIfUnarmed_self hpass, dropNotice_self hnotice]

theorem blackoutWritesBack {k : Nat} {b : Blackout} (hb : s.blackouts[k]? = some b) (hspan : b.start < b.stop)
    (hstop : b.stop < 4294967296) (hc : b.classes ≠ 0) : (s.readRecord .blackout k).length = 9 ∧
      parseRecord .blackout (s.readRecord .blackout k) = .blackout b ∧
      s.takeRecord (.blackout b) = .error .duplicate := by
  have hread : s.readRecord .blackout k = beBytes 4 b.start ++ beBytes 4 b.stop ++ [b.classes] := by
    simp only [State.readRecord, hb]
    rfl
  obtain ⟨-, -, hform, -⟩ := tableWriteForms
  have hmem : b ∈ s.blackouts := List.mem_of_getElem? hb
  refine ⟨by rw [hread]; simp, ?_, ?_⟩
  · rw [hread]; exact hform b.start b.stop b.classes (by omega) hstop
  · rw [takeBlackout_insert hc, State.blackoutInsert, if_neg (Nat.not_le.mpr hspan), if_pos (by simpa using hmem)]

end WriteBack

/-! ### A MAP record written back (R14, R20) -/

theorem natAt_take {b : List Byte} {m off len : Nat} (h : off + len ≤ m) : natAt (b.take m) off len = natAt b off len := by
  unfold natAt
  rw [List.drop_take, List.take_take, Nat.min_eq_left (by omega)]

theorem byteAt_take {b : List Byte} {m off : Nat} (h : off < m) : byteAt (b.take m) off = byteAt b off := by
  simp [byteAt, List.getD, h]

theorem timeAt_take {b : List Byte} {m off : Nat} (h : off + 5 ≤ m) : timeAt (b.take m) off = timeAt b off := by
  unfold timeAt yesAt
  rw [byteAt_take (by omega), natAt_take (by omega)]

/-- A written MAP record is read from 28 bytes. -/
theorem parseMap_take (b : List Byte) : parseMap (b.take 28) = parseMap b := by
  unfold parseMap bitAt yesAt
  rw [natAt_take (by omega), byteAt_take (by omega), byteAt_take (by omega), natAt_take (by omega),
    natAt_take (by omega), natAt_take (by omega), natAt_take (by omega), natAt_take (by omega), natAt_take (by omega),
    byteAt_take (by omega), timeAt_take (by omega), timeAt_take (by omega), timeAt_take (by omega)]

/-- The record a read MAP record is when it is written: the entry's fields, no group selected. -/
def readAsWritten (e : Entry) (i : EntryId) : MapRecord :=
  { wholeRecord e i with identity := false, membership := false, ratings := false, flags := false, history := false }

theorem parse_mapRecord {e : Entry} {i : EntryId} (h : entryOk e) (ht : TimesFit e) :
    parseRecord .map (e.readRecord i) = .map (readAsWritten e i) := by
  have hsame : parseMap (e.readRecord i) = parseMap (e.imageRecord i) := by
    have htake : (e.imageRecord i).take 28 = e.writtenPart i := by
      rw [Entry.imageRecord, List.append_assoc, List.append_assoc, ← length_writtenPart e i, List.take_left]
    rw [← parseMap_take (e.readRecord i), ← parseMap_take (e.imageRecord i), readRecord_take, htake]
  have hselect : byteAt (e.imageRecord i) 1 = 0 := by
    simp only [Entry.imageRecord, Entry.writtenPart, List.append_assoc]
    rfl
  have hwhole := imageMapRecord_spec e i h ht
  have hread : readAsWritten e i = { imageMapRecord (e.imageRecord i) with
      identity := false, membership := false, ratings := false, flags := false, history := false } := by
    rw [hwhole]
    rfl
  refine congrArg TableRecord.map ?_
  rw [hsame, hread]
  simp only [imageMapRecord, parseMap, bitAt, hselect]
  rfl

/-- Writing no group of an entry only clears touched. -/
theorem applied_readAsWritten {e : Entry} {i : EntryId} (h : entryOk e) :
    (readAsWritten e i).applied e = { e with touched := false } := by
  obtain ⟨-, -, -, -, hfree⟩ := h
  cases hin : e.inUse with
  | false =>
    rw [hfree hin]
    rfl
  | true =>
    have happlied : (readAsWritten e i).applied e = (readAsWritten e i).changed e := by
      simp [MapRecord.applied, MapRecord.removes, readAsWritten, hin]
    rw [happlied, ← hin]
    rfl

theorem mapWritesBack {s : State} {i : EntryId} (h : entryOk (s.entry i)) :
    s.takeRecord (.map (readAsWritten (s.entry i) i)) =
      .ok { s with entries := s.entries.set i { s.entry i with touched := false } } := by
  refine takeMap_taken i.isLt (mapCheck_none.mpr ⟨?_, ?_, ?_⟩) (applied_readAsWritten h)
  · simp [MapRecord.valueBad, MapRecord.creates, readAsWritten]
  · simp [MapRecord.busy, MapRecord.removes, MapRecord.moves, MapRecord.changesGroup, readAsWritten]
  · simp [State.duplicates, readAsWritten]

/-- Settles O50: table by table. -/
theorem readRecordWritesBack : Obligations.ReadRecordWritesBack := by
  intro s tb k
  refine ⟨fun h htb hk => ?_, fun hk => calendarWritesBack ⟨k, hk⟩, bridgeWritesBack, fun b => blackoutWritesBack,
    fun hk => ?_⟩
  · rcases htb with rfl | rfl | rfl | rfl
    · exact groupWritesBack h ⟨k, hk⟩
    · exact criteriaWritesBack h ⟨k, hk⟩
    · exact policyWritesBack ⟨k, hk⟩
    · exact lineWritesBack h ⟨k, hk⟩
  · intro e he ht record
    refine ⟨?_, ?_, mapWritesBack (i := ⟨k, hk⟩) he⟩
    · rw [readRecord_map s ⟨k, hk⟩, readRecord_split, List.length_append, List.length_append, length_writtenPart,
        length_stateField, length_historyPart]
    · rw [readRecord_map s ⟨k, hk⟩]
      exact parse_mapRecord he fun m hm => ht m hm

end Sys2Proof.ImageAndRecords
end

section
/-! Power-up: the load of an image onto the default tables, and the state that comes of it (R21, R132, R151, R180,
R182, R184). -/

namespace Sys2Proof.PowerUp

open Sys2Proof Sys2Proof.Machine Sys2Proof.Machine.Safety Sys2Proof.Laws Sys2Proof.DeviceLaws
  Sys2Proof.ManagementRequests Sys2Proof.MapRecords Sys2Proof.ImageAndRecords

/-! ### What a load changes (R21, R180) -/

/-- An entry that is neither under test nor waiting (R21). -/
def Settled (e : Entry) : Prop := e.state = .ready ∨ e.state = .faulted

/-- `t` is the idle device `base` with other tables and entries, the entries settled. -/
structure LoadedOnto (base t : State) : Prop where
  rest : t = { base with
    entries := t.entries, groups := t.groups, rows := t.rows, blackouts := t.blackouts, criteria := t.criteria
    policy := t.policy, lines := t.lines, settings := t.settings }
  settled : ∀ i : EntryId, Settled (t.entry i)

/-- No pass and no notice is under way. -/
structure AtRest (s : State) : Prop where
  pass : s.passState = .idle
  plan : s.plan = []
  pending : s.noticePending = false
  owed : s.noticeOwed = false

section Loads

variable {base s t : State}

theorem LoadedOnto.atRest (h : LoadedOnto base t) (hb : AtRest base) : AtRest t := by
  rw [h.rest]
  exact ⟨hb.pass, hb.plan, hb.pending, hb.owed⟩

/-- An entry written, settled. -/
theorem LoadedOnto.setEntry (h : LoadedOnto base s) {i : EntryId} {e : Entry} (he : Settled e) :
    LoadedOnto base (s.setEntry i e) where
  rest := by
    conv => lhs; rw [h.rest]
    rfl
  settled j := by
    rw [setEntry_entry]
    split
    · exact he
    · exact h.settled j

/-- Tables written. -/
theorem LoadedOnto.tables (h : LoadedOnto base s) (ht : t = { s with
    groups := t.groups, rows := t.rows, blackouts := t.blackouts, criteria := t.criteria, policy := t.policy
    lines := t.lines, settings := t.settings }) : LoadedOnto base t where
  rest := by
    conv => lhs; rw [ht]
    rw [h.rest]
    conv => rhs; rw [ht]
  settled i := by
    have he : t.entries = s.entries := by rw [ht]
    rw [entry_congr he i]
    exact h.settled i

/-- Writing an entry settled before leaves it settled (R17). -/
theorem settled_applied {r : MapRecord} {e : Entry} (h : Settled e) : Settled (r.applied e) := by
  rcases applied_cases r e with ⟨-, -, ha⟩ | ⟨-, -, ha⟩ | ⟨-, -, ha⟩ | ⟨-, -, ha⟩
  · rw [ha]; exact .inl rfl
  · obtain ⟨-, hstate, -⟩ := changed_rest r e
    rw [ha, Settled, hstate]
    exact h
  · rw [ha]; exact .inl rfl
  · rw [ha]; exact h

theorem settled_withExtra (e : Entry) (x : ImageExtra) : Settled (e.withExtra x) := by
  unfold Settled Entry.withExtra
  cases x.faulted
  · exact .inl rfl
  · exact .inr rfl

theorem LoadedOnto.takeMap {r : MapRecord} (h : LoadedOnto base s) (ht : s.takeMap r = .ok t) :
    LoadedOnto base t := by
  unfold State.takeMap at ht
  split at ht
  · dsimp only at ht
    split at ht
    · cases ht
    · cases ht
      exact h.setEntry (settled_applied (h.settled _))
  · cases ht

theorem LoadedOnto.takeBridge {r : BridgeRecord} (hb : AtRest base) (h : LoadedOnto base s)
    (ht : s.takeBridge r = .ok t) : LoadedOnto base t := by
  unfold State.takeBridge at ht
  split at ht
  · cases ht
  · split at ht
    · cases ht
    · split at ht
      · next m =>
        obtain ⟨hpass, hplan, hpending, howed⟩ := h.atRest hb
        have hpassKept := endIfUnarmed_self (s := { s with settings := r.settings ⟨r.filterMode, m⟩ })
          (.inr ⟨hpass, hplan⟩)
        have hnoticeKept := dropNotice_self (s := { s with settings := r.settings ⟨r.filterMode, m⟩ })
          (.inr ⟨hpending, howed⟩)
        rw [hpassKept, hnoticeKept] at ht
        cases ht
        exact h.tables rfl
      · cases ht

/-- A record taken in a load changes its table only. -/
theorem LoadedOnto.takeRecord {r : TableRecord} (hb : AtRest base) (h : LoadedOnto base s)
    (ht : s.takeRecord r = .ok t) : LoadedOnto base t := by
  cases r with
  | map r => exact h.takeMap ht
  | bridge r => exact h.takeBridge hb ht
  | group r =>
    change s.takeGroup r = _ at ht
    unfold State.takeGroup at ht
    split at ht
    · split at ht
      · cases ht; exact h.tables rfl
      · cases ht
    · cases ht
  | calendar r =>
    change s.takeCalendar r = _ at ht
    unfold State.takeCalendar at ht
    split at ht
    · cases ht; exact h.tables rfl
    · cases ht
  | criteria c v =>
    change s.takeCriteria c v = _ at ht
    unfold State.takeCriteria at ht
    split at ht
    · cases ht; exact h.tables rfl
    · cases ht
  | policy k halt =>
    change s.takePolicy k halt = _ at ht
    unfold State.takePolicy at ht
    split at ht
    · cases ht; exact h.tables rfl
    · cases ht
  | line r =>
    change s.takeLine r = _ at ht
    unfold State.takeLine at ht
    split at ht
    · cases ht; exact h.tables rfl
    · cases ht
  | blackout b =>
    change s.takeBlackout b = _ at ht
    unfold State.takeBlackout State.blackoutRemove State.blackoutInsert at ht
    split at ht
    · split at ht
      · cases ht
      · cases ht; exact h.tables rfl
    · split at ht
      · cases ht
      · split at ht
        · cases ht
        · split at ht
          · cases ht
          · cases ht; exact h.tables rfl

theorem LoadedOnto.addExtra (h : LoadedOnto base s) (index : Nat) (x : ImageExtra) :
    LoadedOnto base (s.addExtra index x) := by
  unfold State.addExtra
  split
  · split
    · exact h.setEntry (settled_withExtra _ x)
    · exact h
  · exact h

theorem LoadedOnto.loadRecord {table : Table} {b : List Byte} (hb : AtRest base) (h : LoadedOnto base s)
    (ht : s.loadRecord table b = some t) : LoadedOnto base t := by
  unfold State.loadRecord at ht
  split at ht
  · unfold State.loadMap at ht
    split at ht
    · next hmap _ => cases ht; exact (h.takeMap hmap).addExtra _ _
    · cases ht
  · split at ht
    · next hrecord => cases ht; exact h.takeRecord hb hrecord
    · cases ht

theorem LoadedOnto.loadRecords {table : Table} {k : Nat} {b rest : List Byte} (hb : AtRest base)
    (h : LoadedOnto base s) (ht : loadRecords table k b s = some (t, rest)) : LoadedOnto base t := by
  induction k generalizing b s with
  | zero => cases ht; exact h
  | succ k ih =>
    unfold Machine.loadRecords at ht
    split at ht
    · cases ht
    · split at ht
      · next u hu => exact ih (h.loadRecord hb hu) ht
      · cases ht

theorem LoadedOnto.loadTables {tables : List Table} {b : List Byte} (hb : AtRest base) (h : LoadedOnto base s)
    (ht : loadTables tables b s = some t) : LoadedOnto base t := by
  induction tables generalizing b s with
  | nil =>
    unfold Machine.loadTables at ht
    split at ht
    · cases ht; exact h
    · cases ht
  | cons table rest ih =>
    unfold Machine.loadTables at ht
    split at ht
    · next u left hu =>
      refine ih ?_ ht
      unfold loadTable at hu
      split at hu
      · split at hu
        · exact h.loadRecords hb hu
        · cases hu
      · cases hu
    · cases ht

end Loads

/-! ### The load of an image -/

/-- A good image is one that is not bad before its records and whose records load; its rows are marked written. -/
theorem loadImage_loads {s t : State} (hrest : AtRest s) (hsettled : ∀ i : EntryId, Settled (s.entry i))
    (h : s.loadImage = some t) : LoadedOnto s t ∧ ∀ d : Fin 7, t.rows[d].written = true := by
  unfold State.loadImage at h
  split at h
  · split at h
    · split at h
      · obtain ⟨u, hu, rfl⟩ := Option.map_eq_some_iff.mp h
        have hbase : LoadedOnto s s := ⟨rfl, hsettled⟩
        exact ⟨(hbase.loadTables hrest hu).tables rfl, fun d => by simp [State.markRows]⟩
      · cases h
    · cases h
  · cases h

theorem loadImage_bad {s : State} (h : ImageFrameBad s.flash) : s.loadImage = none := by
  unfold State.loadImage
  rcases h with hmarker | hlength | hcrc
  · exact if_neg hmarker
  · split
    · exact if_neg (Nat.not_le.mpr hlength)
    · rfl
  · split
    · split
      · refine if_neg fun hok => hcrc ?_
        exact beq_iff_eq.mp hok
      · rfl
    · rfl

theorem imageFrameBad_blank : ImageFrameBad [] := .inl (by decide)

/-! ### The state at power-up (R132, R151, R180, R182) -/

section AtPowerUp

variable (s : State) (straps : Byte)

theorem atPowerUp_atRest : AtRest (s.atPowerUp straps) := ⟨rfl, rfl, rfl, rfl⟩

theorem atPowerUp_settled (i : EntryId) : Settled ((s.atPowerUp straps).entry i) := by
  have he : (s.atPowerUp straps).entry i = State.reset.entry i := rfl
  rw [he, reset_entry]
  exact .inl rfl

/-- The sense a line comes up with (R132). -/
theorem readMains_eq (u : State) (present : Vector Bool 6) : u.readMains present = { u with
    mains := Vector.ofFn fun n =>
      { sense := if present[n] then .present else .lossPending u.settings.debounce, outageMinutes := 0, holdOff := 0 } } :=
  rfl

/-- With no mask bit of a flag its rise notes nothing. -/
theorem noteRise_unmasked {u : State} {f : EventFlag} (h : u.settings.notifyMask = 0) : u.noteRise f = u := by
  refine if_pos ?_
  rw [h]
  exact BitVec.getLsbD_zero

/-- With no notification set up, opening the port only opens it (R151). -/
theorem openPort_unmasked {u : State} (h : u.settings.notifyMask = 0) (hclosed : u.portOpen = false) :
    u.openPort true = { u with portOpen := decide (u.strap ≠ 0 ∧ u.strap ≠ 255) } := by
  have hstrap : strapOk u.strap = decide (u.strap ≠ 0 ∧ u.strap ≠ 255) := by
    unfold strapOk
    rw [Bool.eq_iff_iff]
    simp
  unfold State.openPort
  split
  · next hok =>
    have h1 : State.noteRise { u with portOpen := true } .clockNeeded = { u with portOpen := true } :=
      noteRise_unmasked h
    have h2 : State.noteRise { u with portOpen := true } .imageBad = { u with portOpen := true } :=
      noteRise_unmasked h
    dsimp only
    rw [if_pos rfl, h1, h2, ← hstrap, hok]
  · next hok =>
    rw [← hstrap, Bool.eq_false_iff.mpr hok, ← hclosed]

variable {s straps}

theorem powerUp_unloaded {answers : Bool} (present : Vector Bool 6)
    (h : (if answers then (s.atPowerUp straps).loadImage else none) = none) : s.powerUp straps answers present =
      { State.reset with
        strap := straps, portOpen := decide (straps ≠ 0 ∧ straps ≠ 255), linkUp := s.linkUp, flash := s.flash,
        pending := s.pending
        mains := Vector.ofFn fun n =>
          { sense := if present[n] then .present else .lossPending 5, outageMinutes := 0, holdOff := 0 } } := by
  unfold State.powerUp
  rw [h]
  dsimp only
  rw [openPort_unmasked rfl rfl]
  rfl

/-- Power-up with an image that loads, onto the tables it gives. -/
theorem powerUp_loaded {loaded : State} (present : Vector Bool 6)
    (h : (s.atPowerUp straps).loadImage = some loaded) : s.powerUp straps true present =
      { loaded with
        portOpen := decide (straps ≠ 0 ∧ straps ≠ 255)
        noticePending := decide (straps ≠ 0 ∧ straps ≠ 255 ∧ loaded.settings.notifyMask.getLsbD 13 = true ∧
          loaded.settings.reportAddress ≠ 0)
        mains := Vector.ofFn fun n =>
          { sense := if present[n] then .present else .lossPending loaded.settings.debounce, outageMinutes := 0,
            holdOff := 0 } } := by
  obtain ⟨hload, -⟩ := loadImage_loads (atPowerUp_atRest s straps) (atPowerUp_settled s straps) h
  have hrest := hload.atRest (atPowerUp_atRest s straps)
  have hstrap : loaded.strap = straps := by rw [hload.rest]; rfl
  have htx : loaded.tx = [] := by rw [hload.rest]; rfl
  have hclosed : loaded.portOpen = false := by rw [hload.rest]; rfl
  unfold State.powerUp
  rw [if_pos rfl, h]
  dsimp only
  rw [openPort_spec loaded hrest.pending hrest.owed htx hclosed, readMains_eq, hstrap]

theorem powerUp_settled (answers : Bool) (present : Vector Bool 6) (i : EntryId) :
    Settled ((s.powerUp straps answers present).entry i) := by
  cases h : (if answers then (s.atPowerUp straps).loadImage else none) with
  | none =>
    rw [powerUp_unloaded present h]
    exact atPowerUp_settled s straps i
  | some loaded =>
    cases answers with
    | false => cases h
    | true =>
      obtain ⟨hload, -⟩ := loadImage_loads (atPowerUp_atRest s straps) (atPowerUp_settled s straps) h
      rw [powerUp_loaded present h]
      exact hload.settled i

end AtPowerUp

/-- Settles O5: no image, the entries, a saved image, any image that loads. -/
theorem powerUp : Obligations.PowerUp := by
  intro s straps answers present
  refine ⟨fun h => ?_, ⟨_, rfl, fun i _ => powerUp_settled answers present i⟩, fun saved hsaved hflash => ?_,
    fun loaded hanswers hload => ?_⟩
  · refine congrArg Host.Outcome.next (powerUp_unloaded present ?_)
    cases answers with
    | false => rfl
    | true =>
      rw [if_pos rfl]
      rcases h with h | h | h | h
      · cases h
      · refine loadImage_bad ?_
        change ImageFrameBad s.flash
        rw [h]
        exact imageFrameBad_blank
      · exact loadImage_bad h
      · exact h
  · have hload := loadImage_saved saved (s.atPowerUp straps) hsaved hflash rfl rfl rfl rfl rfl rfl
    refine congrArg Host.Outcome.next ((powerUp_loaded present hload).trans ?_)
    have hlines : (withTables saved (s.atPowerUp straps)).lines =
        Vector.ofFn fun n => { LineEngine.initial with settings := (saved.line n).settings } := by
      refine congrArg Vector.ofFn (funext fun n => ?_)
      have hline : (s.atPowerUp straps).line n = .initial := reset_line n
      rw [hline]
    have hrest : withTables saved (s.atPowerUp straps) =
        { withTables saved (s.atPowerUp straps) with
          lines := Vector.ofFn fun n => { LineEngine.initial with settings := (saved.line n).settings } } := by
      rw [← hlines]
    rw [hrest]
    rfl
  · subst hanswers
    obtain ⟨hloads, hrows⟩ := loadImage_loads (atPowerUp_atRest s straps) (atPowerUp_settled s straps) hload
    refine ⟨_, congrArg Host.Outcome.next (powerUp_loaded present hload), rfl,
      ⟨rfl, rfl, rfl, rfl, rfl, rfl, fun _ => rfl⟩, ?_⟩
    have hrest := hloads.atRest (atPowerUp_atRest s straps)
    have hmask : EventFlag.clockNeeded.mask = 0x2000 := by decide
    have hflags : (s.atPowerUp straps).flags = 0x2000 := hmask
    refine ⟨?_, ?_, hrows, ?_, ?_, rfl, ?_, ?_, ?_, ?_, ?_, hrest.pass, hrest.plan, hrest.owed, rfl, fun n => ?_⟩
    · rw [hloads.rest]; rfl
    · rw [hloads.rest]; rfl
    · rw [hloads.rest]; exact hflags
    · rw [hloads.rest]; rfl
    · rw [hloads.rest]; rfl
    · rw [hloads.rest]; rfl
    · rw [hloads.rest]; rfl
    · rw [hloads.rest]; rfl
    · rw [hloads.rest]; rfl
    · simp [State.mainsLine]

end Sys2Proof.PowerUp
end

section
/-! The trunk: arrival, placing, sending and the rotation (R140, R151 to R158, R183 to R187). -/

namespace Sys2Proof.Trunk

open Sys2Proof Sys2Proof.Machine Sys2Proof.Machine.Safety Sys2Proof.Laws Sys2Proof.DeviceLaws
  Sys2Proof.BridgeControls Sys2Proof.ManagementBytes

/-! ### Addresses (R151, R152) -/

theorem stationAddressOf_toNat (strap : Byte) :
    (stationAddressOf strap).toNat = 0x02A73C000000 + strap.toNat := by
  revert strap
  decide

theorem admits_iff (s : State) (d : Mac) : s.admits d = true ↔ d = stationAddressOf s.strap ∨
    (1 ≤ s.settings.filterMode.val ∧ d = 0xFFFFFFFFFFFF) ∨ (2 ≤ s.settings.filterMode.val ∧ d = 0x03A73C0000FF) ∨
    s.settings.filterMode = 3 := by
  unfold State.admits State.stationAddress broadcastAddress groupAddress
  generalize s.settings.filterMode = m
  match m with
  | ⟨0, _⟩ | ⟨1, _⟩ | ⟨2, _⟩ | ⟨3, _⟩ => simp [or_assoc]

/-! ### Arrival (R152, R154, R187) -/

theorem ofCode_some {c : Nat} {kind : FrameKind} (h : FrameKind.ofCode c = some kind)
    (hk : kind = .lampRequest ∨ kind = .mgmtRequest) :
    (kind = .lampRequest ∧ c = 1) ∨ (kind = .mgmtRequest ∧ c = 3) := by
  unfold FrameKind.ofCode at h
  split at h
  · exact .inl ⟨(Option.some.inj h).symm, rfl⟩
  · cases h; simp at hk
  · exact .inr ⟨(Option.some.inj h).symm, rfl⟩
  · cases h; simp at hk
  · cases h; simp at hk
  · cases h

/-- The bytes after the type field pass the framing checks exactly when every check holds. -/
theorem framing_some {p : List Byte} {kind : FrameKind} {body : List Byte} (h : framing p = some (kind, body)) :
    7 ≤ p.length ∧ byteAt p 0 = 1 ∧ FrameKind.ofCode (natAt p 1 1) = some kind ∧ 7 + natAt p 5 2 ≤ p.length ∧
      body = (p.drop 7).take (natAt p 5 2) ∧ bodyLengthOk kind body = true := by
  unfold framing at h
  split at h
  · cases h
  · next hlen =>
    split at h
    · cases h
    · next hversion =>
      split at h
      · cases h
      · next k hkind =>
        split at h
        · cases h
        · next hbody =>
          dsimp only at h
          split at h
          · next hok =>
            cases h
            rw [List.length_drop] at hbody
            exact ⟨by omega, Classical.not_not.mp hversion, hkind, by omega, rfl, hok⟩
          · cases h

theorem forBridge_iff (s : State) (kind : FrameKind) (bridge : Byte) (dest : Mac) :
    s.forBridge kind bridge dest = true ↔ (kind = .lampRequest ∨ kind = .mgmtRequest) ∧
      (bridge = 0 ∨ bridge = s.strap) ∧ (kind = .mgmtRequest → dest = stationAddressOf s.strap) := by
  simp [State.forBridge, State.stationAddress, and_assoc, Decidable.imp_iff_not_or]

/-- What a frame that joins the receive queue passed (R152). -/
structure Arrives (s : State) (f : TrunkFrame) : Prop where
  checked  : f.fcsAgrees = true
  etype    : f.etype = s.settings.lightingType
  admitted : s.admits f.dest = true
  header   : 7 ≤ f.payload.length
  version  : byteAt f.payload 0 = 1
  length   : 7 + natAt f.payload 5 2 ≤ f.payload.length
  bridge   : byteAt f.payload 4 = 0 ∨ byteAt f.payload 4 = s.strap
  kind     : natAt f.payload 1 1 = 1 ∨ natAt f.payload 1 1 = 3
  lamp     : natAt f.payload 1 1 = 1 → ((f.payload.drop 7).take (natAt f.payload 5 2)).length = 9
  mgmt     : natAt f.payload 1 1 = 3 → MgmtLength ((f.payload.drop 7).take (natAt f.payload 5 2)) ∧
    f.dest = stationAddressOf s.strap

theorem arrives_of_arrival {s : State} {f : TrunkFrame} {g : Frame} (h : s.arrival f = some g) : Arrives s f := by
  unfold State.arrival at h
  split at h
  · cases h
  · next hfcs =>
    split at h
    · cases h
    · next htype =>
      split at h
      · cases h
      · next hadmit =>
        split at h
        · cases h
        · next kind body hframe =>
          split at h
          · next hfor =>
            obtain ⟨hlen, hversion, hcode, hroom, rfl, hok⟩ := framing_some hframe
            obtain ⟨hkind, hbridge, hdest⟩ := (forBridge_iff _ _ _ _).mp hfor
            have hcases := ofCode_some hcode hkind
            refine ⟨by simpa using hfcs, Classical.not_not.mp htype, by simpa using hadmit, hlen, hversion, hroom, hbridge,
              ?_, fun h1 => ?_, fun h3 => ?_⟩
            · rcases hcases with ⟨-, h⟩ | ⟨-, h⟩
              · exact .inl h
              · exact .inr h
            · obtain ⟨rfl, -⟩ := hcases.resolve_right fun h => by omega
              exact beq_iff_eq.mp hok
            · obtain ⟨rfl, -⟩ := hcases.resolve_left fun h => by omega
              exact ⟨(mgmtLengthOk_iff _).mp hok, hdest rfl⟩
          · cases h

theorem frameArrival_discarded {s : State} {f : TrunkFrame} (h : s.portOpen = true → ¬Arrives s f) :
    s.frameArrival f = s := by
  unfold State.frameArrival
  split
  · next hopen =>
    split
    · next g hg => exact absurd (arrives_of_arrival hg) (h hopen)
    · rfl
  · rfl

/-- The trunk header of a request frame (section 12.1). -/
def requestHeader (g : Frame) : List Byte :=
  [1, if g.kind = .lampRequest then 1 else 3] ++ beBytes 2 g.tag.toNat ++ [g.bridge] ++ beBytes 2 g.body.length

/-- A request laid out as section 12.1 gives, with padding behind it, is taken as it was sent. -/
theorem arrival_request {s : State} {g : Frame} (padding : List Byte) (htype : g.etype = s.settings.lightingType)
    (hadmit : s.admits g.dest = true) (hbridge : g.bridge = 0 ∨ g.bridge = s.strap)
    (hkind : (g.kind = .lampRequest ∧ g.body.length = 9) ∨ (g.kind = .mgmtRequest ∧ MgmtLength g.body ∧
      g.body.length < 65536 ∧ g.dest = stationAddressOf s.strap)) :
    s.arrival (.mk true g.dest g.source g.etype (requestHeader g ++ g.body ++ padding)) = some g := by
  have hlt : g.body.length < 65536 := by
    rcases hkind with ⟨-, h⟩ | ⟨-, -, h, -⟩
    · omega
    · exact h
  generalize hp : requestHeader g ++ g.body ++ padding = p
  have hseven : (requestHeader g).length = 7 := rfl
  have hdrop : p.drop 7 = g.body ++ padding := by
    rw [← hp, List.append_assoc, ← hseven, List.drop_left]
  have hlength : natAt p 5 2 = g.body.length := natAt_front
    ([1, if g.kind = .lampRequest then 1 else 3] ++ beBytes 2 g.tag.toNat ++ [g.bridge]) (g.body ++ padding)
    (by rw [← hp]; simp only [requestHeader, List.append_assoc]) rfl hlt
  have htag : natAt p 2 2 = g.tag.toNat := natAt_front [1, if g.kind = .lampRequest then 1 else 3]
    ([g.bridge] ++ beBytes 2 g.body.length ++ g.body ++ padding)
    (by rw [← hp]; simp only [requestHeader, List.append_assoc]) rfl g.tag.isLt
  have hcode : FrameKind.ofCode (natAt p 1 1) = some g.kind := by
    rw [natAt_one, ← hp]
    rcases hkind with ⟨h, -⟩ | ⟨h, -⟩
    · simp only [requestHeader, h]; rfl
    · simp only [requestHeader, h]; rfl
  have hok : bodyLengthOk g.kind g.body = true := by
    rcases hkind with ⟨h, h9⟩ | ⟨h, hm, -⟩
    · rw [h]; exact beq_iff_eq.mpr h9
    · rw [h]; exact (mgmtLengthOk_iff _).mpr hm
  have hframe : framing p = some (g.kind, g.body) := by
    have hplen : ¬p.length < 7 := by rw [← hp, List.length_append, List.length_append, hseven]; omega
    have hversion : ¬byteAt p 0 ≠ 1 := by rw [← hp]; exact Classical.not_not.mpr rfl
    have hroom : ¬(p.drop 7).length < natAt p 5 2 := by rw [hdrop, hlength, List.length_append]; omega
    have htake : (p.drop 7).take (natAt p 5 2) = g.body := by rw [hdrop, hlength, List.take_left]
    unfold framing
    rw [if_neg hplen, if_neg hversion, hcode]
    dsimp only
    rw [if_neg hroom, htake, if_pos hok]
  have hfor : s.forBridge g.kind (byteAt p 4) g.dest = true := by
    have hb : byteAt p 4 = g.bridge := by rw [← hp]; rfl
    rw [hb, forBridge_iff]
    rcases hkind with ⟨h, -⟩ | ⟨h, -, -, hd⟩
    · exact ⟨.inl h, hbridge, fun h' => by rw [h] at h'; cases h'⟩
    · exact ⟨.inr h, hbridge, fun _ => hd⟩
  unfold State.arrival
  rw [if_neg (by simp), if_neg (Classical.not_not.mpr htype), if_neg (by simp [hadmit])]
  dsimp only
  rw [hframe]
  dsimp only
  rw [if_pos hfor, htag, ← hp]
  simp only [BitVec.ofNat_toNat, BitVec.setWidth_eq]
  rfl

/-- Settles O36: a request as laid out is taken; a frame that fails a check is not. -/
theorem frameArrival : Obligations.FrameArrival := by
  intro s g padding header arriving
  refine ⟨⟨stationAddressOf_toNat s.strap, admits_iff s⟩, fun hopen htype hadmit hbridge hkind => ?_, fun f => ?_⟩
  · have harrival : s.arrival arriving = some g := arrival_request padding htype hadmit hbridge hkind
    have hjoin : s.frameArrival arriving = s.joinRx g := by
      rw [State.frameArrival, if_pos hopen, harrival]
    unfold State.joinRx at hjoin
    refine ⟨fun hroom => ?_, fun hfull => ?_⟩
    · rw [if_neg (by omega)] at hjoin
      exact congrArg Host.Outcome.next hjoin
    · rw [if_pos hfull] at hjoin
      exact ⟨_, congrArg Host.Outcome.next hjoin, raise_onlyFlags s _, raise_flag_self s _⟩
  · intro body h
    refine congrArg Host.Outcome.next (frameArrival_discarded fun hopen ha => ?_)
    have hbyte (v : Byte) (hv : byteAt f.payload 1 = v) : natAt f.payload 1 1 = v.toNat := by rw [natAt_one, hv]
    rcases h with h | h | h | h | h | h | h | h | h | ⟨h, k⟩ | ⟨h, k⟩ | ⟨h, k⟩
    · rw [hopen] at h; cases h
    · rw [ha.checked] at h; cases h
    · exact h ha.etype
    · rw [ha.admitted] at h; cases h
    · exact absurd ha.header (by omega)
    · exact h ha.version
    · exact absurd ha.length (by omega)
    · exact h.2 (ha.lamp (hbyte 1 h.1))
    · exact h.2 (ha.mgmt (hbyte 3 h.1)).1
    · rcases ha.bridge with hb | hb
      · exact h hb
      · exact k hb
    · rcases ha.kind with hk | hk
      · exact h hk
      · exact k hk
    · exact k (ha.mgmt h).2

/-! ### Placing into the transmit queue (R140, R168, R185) -/

section Placing

variable {s : State}

theorem txFull_iff : s.txFull = true ↔ 16 ≤ s.tx.length := by simp [State.txFull]

theorem txFull_false (h : s.tx.length < 16) : s.txFull = false := by
  rw [← Bool.not_eq_true, txFull_iff]
  omega

theorem placeMgmt_eq {answer : Frame} (h : s.mgmt = .answering answer) :
    s.placeMgmt = { s with tx := s.tx ++ [answer], mgmt := .idle } := by
  rw [State.placeMgmt, h]
  rfl

theorem placeBacklog_eq {n : LineId} {f : Frame} {rest : List Frame} (h : (s.line n).backlog = f :: rest) :
    s.placeBacklog n = { s with
      tx := s.tx ++ [f]
      lines := s.lines.set n { s.line n with
        backlog := rest
        engine := if rest = [] ∧ (s.line n).engine = .holding then .gap else (s.line n).engine } } := by
  have hengine : (if (rest.isEmpty && (s.line n).engine.isHolding) = true then Engine.gap else (s.line n).engine) =
      if rest = [] ∧ (s.line n).engine = .holding then .gap else (s.line n).engine := by
    refine ite_congr (propext ?_) (fun _ => rfl) fun _ => rfl
    cases (s.line n).engine <;> simp [Engine.isHolding]
  unfold State.placeBacklog
  rw [h]
  dsimp only
  rw [hengine]
  rfl

end Placing

/-- Settles O38: each placement, with a place free and without. -/
theorem queuePlacements : Obligations.QueuePlacements := by
  intro s n up
  refine ⟨rfl, fun hfull => ?_, fun hroom hpending => ?_, fun hroom answer h => ?_, fun hroom f rest h => ?_⟩
  · have hfull := txFull_iff.mpr hfull
    refine ⟨?_, ?_, ?_⟩
    · change Host.Outcome.next s.noticeBuild = _
      rw [State.noticeBuild, hfull, if_neg (by simp)]
    · change Host.Outcome.next (s.backlogPlace n) = _
      rw [State.backlogPlace, if_pos hfull]
    · change Host.Outcome.next s.mgmtPlace = _
      rw [State.mgmtPlace, if_pos hfull]
  · refine ⟨s.noticeFrame, ?_, rfl, rfl, rfl, rfl, rfl, statusBlock_length s, statusShows s⟩
    change Host.Outcome.next s.noticeBuild = _
    rw [State.noticeBuild, hpending, txFull_false hroom]
    rfl
  · change Host.Outcome.next s.mgmtPlace = _
    rw [State.mgmtPlace, txFull_false hroom, if_neg Bool.false_ne_true, placeMgmt_eq h]
  · change Host.Outcome.next (s.backlogPlace n) = _
    rw [State.backlogPlace, txFull_false hroom, if_neg Bool.false_ne_true, placeBacklog_eq h]

/-! ### The rotation (R156) -/

/-- The rotation after a waiter goes through all waiters by their turns. -/
theorem rotation_turns (last : Waiter) :
    last.rotation.Pairwise (fun v w => turn last v < turn last w) ∧ ∀ w : Waiter, w ∈ last.rotation := by
  have hmem (l : List Waiter) (h : Waiter.lampPath ∈ l ∧ Waiter.management ∈ l ∧ Waiter.eventUnit ∈ l ∧
      ∀ n : LineId, Waiter.backlog n ∈ l) (w : Waiter) : w ∈ l := by
    obtain ⟨hlamp, hmgmt, hevent, hline⟩ := h
    cases w with
    | lampPath => exact hlamp
    | management => exact hmgmt
    | backlog n => exact hline n
    | eventUnit => exact hevent
  cases last with
  | lampPath => exact ⟨by decide, hmem _ (by decide)⟩
  | management => exact ⟨by decide, hmem _ (by decide)⟩
  | eventUnit => exact ⟨by decide, hmem _ (by decide)⟩
  | backlog n => revert n; exact fun n => ⟨by revert n; decide, hmem _ (by revert n; decide)⟩

/-- In a list in order of a number the first that passes a test is the one with the least number. -/
theorem find_least {α : Type} {l : List α} {f : α → Nat} {p : α → Bool} {w : α}
    (hord : l.Pairwise fun v w => f v < f w) (hmem : w ∈ l) (hp : p w = true)
    (hleast : ∀ v, p v = true → f w ≤ f v) : l.find? p = some w := by
  induction l with
  | nil => cases hmem
  | cons x rest ih =>
    obtain ⟨hx, hrest⟩ := List.pairwise_cons.mp hord
    rcases List.mem_cons.mp hmem with rfl | hmem
    · exact List.find?_cons_of_pos hp
    · rw [List.find?_cons_of_neg]
      · exact ih hrest hmem
      · intro hpx
        have h1 := hleast x hpx
        have h2 := hx w hmem
        omega

theorem nextWaiter_some {b : State} {w : Waiter} (h : FirstWaiter b w) : b.nextWaiter = some w := by
  obtain ⟨hw, hleast⟩ := h
  obtain ⟨hord, hmem⟩ := rotation_turns b.rotation
  exact find_least hord (hmem w) ((waits_iff b w).mpr hw) fun v hv => hleast v ((waits_iff b v).mp hv)

theorem nextWaiter_none {b : State} (h : ∀ w, ¬Waits b w) : b.nextWaiter = none :=
  List.find?_eq_none.mpr fun w _ hw => h w ((waits_iff b w).mp hw)

theorem grantPlace_some {b : State} {w : Waiter} (h : FirstWaiter b w) :
    b.grantPlace = State.serve { b with rotation := w } w := by
  rw [State.grantPlace, nextWaiter_some h]

theorem grantPlace_none {b : State} (h : ∀ w, ¬Waits b w) : b.grantPlace = b := by
  rw [State.grantPlace, nextWaiter_none h]

/-- A waiter other than the Lamp Path that waits takes the place. -/
theorem serve_placeTaken {b : State} {w : Waiter} (hw : Waits b w) (hne : w ≠ .lampPath) :
    PlaceTaken b (State.serve { b with rotation := w } w) w := by
  refine ⟨hne, ?_, ?_, ?_⟩
  · rintro rfl
    obtain ⟨answer, hanswer⟩ := hw
    exact ⟨answer, hanswer, placeMgmt_eq (s := { b with rotation := .management }) hanswer⟩
  · rintro n rfl
    obtain ⟨g, back, hback⟩ := List.exists_cons_of_ne_nil hw
    exact ⟨g, back, hback, placeBacklog_eq (s := { b with rotation := .backlog n }) hback⟩
  · rintro rfl
    exact ⟨_, rfl, rfl, rfl, rfl, rfl, statusBlock_length b, statusShows b, rfl⟩

/-- The place that was taken holds one frame more. -/
theorem placeTaken_length {b t : State} {w : Waiter} (h : PlaceTaken b t w) : t.tx.length = b.tx.length + 1 := by
  obtain ⟨hne, hmgmt, hline, hevent⟩ := h
  cases w with
  | lampPath => exact absurd rfl hne
  | management =>
    obtain ⟨answer, -, rfl⟩ := hmgmt rfl
    simp
  | backlog n =>
    obtain ⟨g, back, -, rfl⟩ := hline n rfl
    simp
  | eventUnit =>
    obtain ⟨g, -, -, -, -, -, -, -, rfl⟩ := hevent rfl
    simp

/-! ### The Lamp Path at a freed place (R158) -/

/-- A Lamp Path that is granted a place takes its oldest request as one that waits for nothing does. -/
theorem lampGranted_eq {b : State} (h : b.tx.length < 16) :
    State.lampTake { b with lampWaiting := false, rotation := .lampPath } =
      State.lampGranted { b with rotation := .lampPath } := by
  have hfull : ({ b with lampWaiting := false, rotation := .lampPath } : State).txFull = false := txFull_false h
  unfold State.lampTake State.lampGranted
  split
  · next hnone =>
    have hnone' : ({ b with rotation := .lampPath } : State).rx.find? Frame.isLamp = none := hnone
    rw [hnone']
  · next f hf =>
    have hf' : ({ b with rotation := .lampPath } : State).rx.find? Frame.isLamp = some f := hf
    rw [hf', hfull, Bool.and_false, Bool.and_false, if_neg Bool.false_ne_true, if_neg Bool.false_ne_true]
    rfl

theorem lampTakeFrame_waiting (b : State) (f : Frame) : (b.lampTakeFrame f).lampWaiting = false := by
  unfold State.lampTakeFrame State.lampPerform
  cases b.lampOutcome f with
  | drop => rfl
  | answer code => rfl
  | cancel i => exact (kept_lampCancel _ i).lampWaiting
  | accept i name => exact (kept_lampAccept _ f i name).lampWaiting

theorem lampGranted_waiting (b : State) : b.lampGranted.lampWaiting = false := by
  unfold State.lampGranted
  split
  · rfl
  · exact lampTakeFrame_waiting b _

/-- The oldest LAMP request, answered at once at the place granted. -/
theorem lampGranted_answer {b : State} {before after : List Frame} {g : Frame} {code : LampCode}
    (hrx : b.rx = before ++ g :: after) (hbefore : ∀ f ∈ before, f.kind ≠ .lampRequest) (hg : g.kind = .lampRequest)
    (hcode : b.lampOutcome g = .answer code) : b.lampGranted = { b with
      rx := before ++ after, lampWaiting := false
      tx := b.tx ++ [refusalFrame b g.source g.tag g.lampCln g.lampCode code] } := by
  have hisLamp (f : Frame) : f.isLamp = true ↔ f.kind = .lampRequest := by simp [Frame.isLamp]
  have hfalse : ∀ f ∈ before, f.isLamp = false := fun f hf => by
    rw [← Bool.not_eq_true, hisLamp]; exact hbefore f hf
  obtain ⟨hfind, herase⟩ := find_eraseP_split (after := after) hfalse ((hisLamp g).mpr hg)
  unfold State.lampGranted
  rw [hrx, hfind]
  dsimp only
  rw [State.lampTakeFrame, hcode, hrx, herase]
  rfl

/-! ### Sending (R155, R156, R184) -/

section Sending

variable {s : State}

theorem sending_false (h : s.portOpen = false ∨ s.linkUp = false ∨ s.tx = []) : s.sending = false := by
  unfold State.sending
  rcases h with h | h | h
  · simp [h]
  · simp [h]
  · simp [h]

theorem noticeSent_eq (s : State) (f : Frame) : s.noticeSent f = { s with
    noticePending := s.noticePending || (f.isNotice && s.noticeOwed), noticeOwed := s.noticeOwed && !f.isNotice } := by
  have hsplit : s.noticeSent f = { s with
      noticePending := if f.isNotice && s.noticeOwed then true else s.noticePending
      noticeOwed := if f.isNotice && s.noticeOwed then false else s.noticeOwed } := by
    unfold State.noticeSent
    split
    · rfl
    · rfl
  rw [hsplit]
  congr 1
  · cases f.isNotice <;> cases s.noticeOwed <;> simp
  · cases f.isNotice <;> cases s.noticeOwed <;> rfl

/-- What stands after the frame at the head has left. -/
theorem frameSent_eq {f : Frame} {rest : List Frame} (hopen : s.portOpen = true) (hup : s.linkUp = true)
    (htx : s.tx = f :: rest) : s.frameSent =
      if 15 ≤ rest.length then (State.noticeSent { s with tx := rest } f).grantPlaces
      else State.noticeSent { s with tx := rest } f := by
  have hsending : s.sending = true := by simp [State.sending, hopen, hup, htx]
  have hfull : s.txFull = true ↔ 15 ≤ rest.length := by rw [txFull_iff, htx, List.length_cons]; omega
  unfold State.frameSent
  rw [if_pos hsending, htx]
  exact ite_congr (propext hfull) (fun _ => rfl) fun _ => rfl

end Sending

theorem grantPlaces_full {b t : State} (ht : b.grantPlace = t) (hfull : 16 ≤ t.tx.length) : b.grantPlaces = t := by
  rw [State.grantPlaces, ht]
  exact if_pos (txFull_iff.mpr hfull)

theorem grantPlaces_free {b t : State} (ht : b.grantPlace = t) (hfree : t.tx.length < 16) :
    b.grantPlaces = t.grantPlace := by
  rw [State.grantPlaces, ht]
  exact if_neg (by rw [txFull_false hfree]; exact Bool.false_ne_true)

theorem grantPlaces_none {b : State} (h : ∀ w, ¬Waits b w) : b.grantPlaces = b := by
  have hnone := grantPlace_none h
  rw [State.grantPlaces, hnone, hnone, ite_self]

/-- The grant of a place in a queue of 15 to a waiter other than the Lamp Path is the only one. -/
theorem grantPlaces_other {b : State} {w : Waiter} (h15 : b.tx.length = 15) (hw : FirstWaiter b w)
    (hne : w ≠ .lampPath) : PlaceTaken b b.grantPlaces w := by
  have htaken := serve_placeTaken hw.1 hne
  rw [← grantPlace_some hw] at htaken
  rw [grantPlaces_full rfl (by rw [placeTaken_length htaken]; omega)]
  exact htaken

/-- Settles O37: the frame leaves, and the first waiter of the rotation takes the place of a full queue. -/
theorem frameSent : Obligations.FrameSent := by
  intro s
  refine ⟨fun h => ?_, fun f rest hopen hup htx => ?_⟩
  · refine congrArg Host.Outcome.next ?_
    rw [State.frameSent, sending_false h]
    rfl
  intro u
  have hu : State.noticeSent { s with tx := rest } f = u := noticeSent_eq _ f
  have hsent := frameSent_eq hopen hup htx
  rw [hu] at hsent
  refine ⟨fun hless => ?_, fun h15 => ?_⟩
  · rw [if_neg (by omega)] at hsent
    exact congrArg Host.Outcome.next hsent
  have hgrant : exec .frameSent s = .next u.grantPlaces := by
    rw [if_pos (Nat.le_of_eq h15.symm)] at hsent
    exact congrArg Host.Outcome.next hsent
  have hlen : u.tx.length = 15 := h15
  rw [hgrant]
  have hother {w : Waiter} (hw : FirstWaiter u w) (hne : w ≠ .lampPath) : PlaceTaken u u.grantPlaces w :=
    grantPlaces_other hlen hw hne
  refine ⟨fun hnone => congrArg Host.Outcome.next (grantPlaces_none hnone), fun w hw =>
    ⟨fun hne => ⟨_, rfl, hother hw hne⟩, ?_, ?_, ?_, ?_, ?_⟩⟩
  · rintro rfl
    have hplace : u.grantPlace = State.lampGranted { u with rotation := .lampPath } := grantPlace_some hw
    have htake := lampGranted_eq (b := u) (by omega)
    rw [← hplace] at htake
    have hwaiting : u.grantPlace.lampWaiting = false := by rw [hplace]; exact lampGranted_waiting _
    refine ⟨u.grantPlace, congrArg Host.Outcome.next htake,
      fun hfull => congrArg Host.Outcome.next (grantPlaces_full rfl hfull), fun hfree => ?_⟩
    rw [grantPlaces_free rfl hfree]
    refine ⟨fun hnone => congrArg Host.Outcome.next (grantPlace_none hnone), fun x hx => ⟨_, rfl, ?_⟩⟩
    rw [grantPlace_some hx]
    refine serve_placeTaken hx.1 ?_
    rintro rfl
    exact absurd (hwaiting.symm.trans hx.1) Bool.false_ne_true
  · rintro answer rfl hanswer
    obtain ⟨-, hmgmt, -, -⟩ := hother hw Waiter.noConfusion
    obtain ⟨answer', hanswer', heq⟩ := hmgmt rfl
    have hsame : answer' = answer := MgmtState.answering.inj (hanswer'.symm.trans hanswer)
    rw [heq, hsame]
  · rintro n g back rfl hback
    obtain ⟨-, -, hline, -⟩ := hother hw Waiter.noConfusion
    obtain ⟨g', back', hback', heq⟩ := hline n rfl
    obtain ⟨rfl, rfl⟩ := List.cons.inj (hback'.symm.trans hback)
    exact congrArg Host.Outcome.next heq
  · rintro rfl
    obtain ⟨-, -, -, hevent⟩ := hother hw Waiter.noConfusion
    obtain ⟨g, hkind, htag, hdest, -, -, hbody, hshows, heq⟩ := hevent rfl
    exact ⟨g, hkind, htag, hdest, hbody, hshows, congrArg Host.Outcome.next heq⟩
  · rintro before g after code rfl hrx hbefore hg hcode
    have hplace : u.grantPlace = State.lampGranted { u with rotation := .lampPath } := grantPlace_some hw
    have hanswer := lampGranted_answer (b := { u with rotation := .lampPath }) hrx hbefore hg hcode
    refine congrArg Host.Outcome.next (grantPlaces_full (hplace.trans hanswer) ?_)
    rw [List.length_append, List.length_singleton]
    exact Nat.le_of_eq (congrArg (· + 1) hlen).symm

end Sys2Proof.Trunk
end

section
/-! The service of a line, rule by rule: requests that join, the stops owed, the grant of an IDLE line and the settling
of a line (R101, R137, R142 to R144, R165). -/

namespace Sys2Proof.LineService

open Sys2Proof Sys2Proof.Machine Sys2Proof.Machine.Safety Sys2Proof.Laws Sys2Proof.Walks

/-! ### Requests that join -/

theorem joinControl_line (s : State) (n : LineId) (k : ControlKind) (i : EntryId) (node : Nat) :
    (s.joinControl n k i node).line n = { s.line n with
      control := (s.line n).control ++ [{ kind := k, entry := i, node := node, mark := s.captureMark k.name i }] } := by
  unfold State.joinControl
  dsimp only
  rw [setLine_line_self, line_congr (captureOffer_lines s _ _ _ _ _ _)]

theorem joinPass_line (s : State) (n : LineId) (r : PassRequest) : (s.joinPass n r).line n = { s.line n with
    pass := (s.line n).pass ++ [{ r with mark := s.captureMark r.name r.entry }] } := by
  unfold State.joinPass
  dsimp only
  rw [setLine_line_self, line_congr (captureOffer_lines s _ _ _ _ _ _)]

/-- A PROBE that waits for an entry is not doubled (R143). -/
theorem joinPoll_waiting {s : State} {i : EntryId}
    (h : (s.line (s.entry i).line).polls.any (fun p => p.entry == i) = true) : s.joinPoll i = s := if_pos h

theorem joinPoll_line {s : State} {i : EntryId}
    (h : (s.line (s.entry i).line).polls.any (fun p => p.entry == i) = false) :
    (s.joinPoll i).line (s.entry i).line = { s.line (s.entry i).line with
      polls := insertPoll { entry := i, mark := s.captureMark .probe i } (s.line (s.entry i).line).polls } := by
  unfold State.joinPoll
  dsimp only
  rw [if_neg (by rw [h]; exact Bool.false_ne_true), setLine_line_self, line_congr (captureOffer_lines s _ _ _ _ _ _)]

/-- The waiting PROBEs with one more among them. -/
theorem insertPoll_perm (p : PollRequest) (l : List PollRequest) : (insertPoll p l).Perm (p :: l) := by
  induction l with
  | nil => exact .refl _
  | cons q rest ih =>
    unfold insertPoll
    split
    · exact .refl _
    · exact (ih.cons q).trans (.swap p q rest)

/-! ### What a joining request opens (R165) -/

theorem captureMatches_iff {s : State} {name : ReqName} {i : EntryId} : s.captureMatches name i = true ↔
    s.capture.state = .watching ∧ (s.entry i).inUse = true ∧ (s.entry i).cln = s.capture.target ∧
      s.capture.mode.suits name.cls = true := by
  simp [State.captureMatches, and_assoc]

/-- A matching request opens the record. -/
theorem captureOffer_opened {s : State} {name : ReqName} {i : EntryId} (o : CaptureOrigin) (a : Argument) (n : LineId)
    (node : Nat) (h : s.captureMatches name i = true) : (s.captureOffer o name a i n node).capture.state = .opened
      { origin := o, name := name, arg := a, line := n, node := node,
        clock := if s.clockValid then some s.minute else none, answer := none } s.capture.nextMark := by
  rw [State.captureOffer, if_pos h]

/-- A request that joins while the capture does not watch changes nothing in it. -/
theorem captureOffer_other {s : State} (o : CaptureOrigin) (name : ReqName) (a : Argument) (i : EntryId) (n : LineId)
    (node : Nat) (h : s.capture.state ≠ .watching) : s.captureOffer o name a i n node = s :=
  if_neg fun hm => h (captureMatches_iff.mp hm).1

/-- A capture that does not watch stays as it is. -/
def CaptureFixed (s t : State) : Prop := s.capture.state ≠ .watching → t.capture = s.capture

theorem CaptureFixed.refl (s : State) : CaptureFixed s s := fun _ => rfl

theorem CaptureFixed.trans {s t u : State} (h : CaptureFixed s t) (k : CaptureFixed t u) : CaptureFixed s u := by
  intro hs
  have ht := h hs
  exact (k (by rw [ht]; exact hs)).trans ht

theorem captureFixed_of_eq {s t : State} (h : t.capture = s.capture) : CaptureFixed s t := fun _ => h

theorem captureFixed_joinControl (s : State) (n : LineId) (k : ControlKind) (i : EntryId) (node : Nat) :
    CaptureFixed s (s.joinControl n k i node) := fun h => by
  have hcapture : (s.joinControl n k i node).capture = (s.captureOffer .bridge k.name k.arg i n node).capture := rfl
  rw [hcapture, captureOffer_other _ _ _ _ _ _ h]

theorem captureFixed_joinPass (s : State) (n : LineId) (r : PassRequest) : CaptureFixed s (s.joinPass n r) := fun h => by
  have hcapture : (s.joinPass n r).capture = (s.captureOffer .headend r.name r.arg r.entry n r.node).capture := rfl
  rw [hcapture, captureOffer_other _ _ _ _ _ _ h]

theorem joinPoll_capture {s : State} {i : EntryId}
    (h : (s.line (s.entry i).line).polls.any (fun p => p.entry == i) = false) : (s.joinPoll i).capture =
      (s.captureOffer .bridge .probe probeArg i (s.entry i).line (s.entry i).node).capture := by
  unfold State.joinPoll
  dsimp only
  rw [if_neg (by rw [h]; exact Bool.false_ne_true)]
  rfl

theorem captureFixed_joinPoll (s : State) (i : EntryId) : CaptureFixed s (s.joinPoll i) := fun h => by
  cases hw : (s.line (s.entry i).line).polls.any (fun p => p.entry == i) with
  | true => rw [joinPoll_waiting hw]
  | false => rw [joinPoll_capture hw, captureOffer_other _ _ _ _ _ _ h]

/-! ### The beginning of an exchange (R137) -/

theorem markStartSent_lines (s : State) (i : EntryId) (name : ReqName) : (s.markStartSent i name).lines = s.lines := by
  unfold State.markStartSent
  split
  · rfl
  · rfl

theorem markStartSent_capture (s : State) (i : EntryId) (name : ReqName) :
    (s.markStartSent i name).capture = s.capture := by
  unfold State.markStartSent
  split
  · rfl
  · rfl

theorem markStartSent_pending {s : State} {i : EntryId} {name : ReqName} {u : CurrentTest} (hn : name.isStart = true)
    (hu : (s.entry i).state = .pending u) :
    s.markStartSent i name = s.setEntryState i (.pending { u with startSent := true }) := by
  rw [State.markStartSent, hn, hu]

theorem markStartSent_other {s : State} {i : EntryId} {name : ReqName} (hn : name.isStart = false) :
    s.markStartSent i name = s := by
  rw [State.markStartSent, hn]

theorem markStartSent_entry_ne (s : State) {i j : EntryId} (name : ReqName) (h : j ≠ i) :
    (s.markStartSent i name).entry j = s.entry j := by
  unfold State.markStartSent
  split
  · rw [setEntryState_entry, if_neg h.symm]
  · rfl

/-- The exchange a request begins. -/
def exchangeOf (l : LineEngine) (w : Work) (node : Nat) : Exchange :=
  { work := w, node := node, bytes := lineRequestBytes node (l.exchangeNumber + 1) w.name w.arg,
    allowed := l.settings.attempts, made := 1, badSeen := false }

theorem beginExchange_line (s : State) (n : LineId) (c : Client) (w : Work) (node : Nat) :
    (s.beginExchange n c w node).line n = { s.line n with
      engine := .sending (exchangeOf (s.line n) w node), exchangeNumber := (s.line n).exchangeNumber + 1
      pointer := c } := by
  unfold State.beginExchange
  dsimp only
  rw [line_congr (markStartSent_lines _ _ _), setLine_line_self]
  rfl

/-- The exchange of a PENDING entry's start makes start sent yes. -/
theorem beginExchange_pending {s : State} {n : LineId} {c : Client} {w : Work} {node : Nat} {u : CurrentTest}
    (hw : w.name.isStart = true) (hu : (s.entry w.entry).state = .pending u) :
    (s.beginExchange n c w node).entry w.entry =
      { s.entry w.entry with state := .pending { u with startSent := true } } := by
  unfold State.beginExchange
  dsimp only
  rw [markStartSent_pending hw (by exact hu), setEntryState_entry, if_pos rfl]
  rfl

/-- No other exchange changes an entry. -/
theorem beginExchange_other {s : State} {n : LineId} {c : Client} {w : Work} {node : Nat}
    (hw : w.name.isStart = false) : (s.beginExchange n c w node).entries = s.entries := by
  unfold State.beginExchange
  dsimp only
  rw [markStartSent_other hw]
  rfl

theorem beginExchange_entry_ne {s : State} {n : LineId} {c : Client} {w : Work} {node : Nat} {j : EntryId}
    (h : j ≠ w.entry) : (s.beginExchange n c w node).entry j = s.entry j := by
  unfold State.beginExchange
  dsimp only
  rw [markStartSent_entry_ne _ w.name h]
  rfl

theorem beginExchange_capture (s : State) (n : LineId) (c : Client) (w : Work) (node : Nat) :
    (s.beginExchange n c w node).capture = s.capture := markStartSent_capture _ _ _

theorem captureFixed_grantTo (s : State) (n : LineId) (c : Client) : CaptureFixed s (s.grantTo n c) := by
  have hbegin (l : LineEngine) (w : Work) (node : Nat) :
      CaptureFixed s ((s.setLine n l).beginExchange n c w node) := captureFixed_of_eq (beginExchange_capture _ _ _ _ _)
  unfold State.grantTo
  dsimp only
  split
  · split
    · exact hbegin _ _ _
    · exact .refl s
  · split
    · exact hbegin _ _ _
    · exact .refl s
  · split
    · exact hbegin _ _ _
    · exact .refl s

theorem captureFixed_lineWork : LineWork CaptureFixed where
  refl := CaptureFixed.refl
  trans := CaptureFixed.trans
  joinControl := fun s n k i node _ => captureFixed_joinControl s n k i node
  grantTo := fun s n c _ => captureFixed_grantTo s n c

/-! ### The stops owed (R101) -/

/-- An in-use entry of a line is ENDING. -/
def EndingOn (s : State) (n : LineId) (i : EntryId) : Prop :=
  (s.entry i).inUse = true ∧ (s.entry i).line = n ∧ (s.entry i).state.isEnding = true

theorem isEnding_iff {st : EntryState} : st.isEnding = true ↔ ∃ u, st = .ending u := by
  cases st <;> simp [EntryState.isEnding]

theorem owedStop_none {s : State} {n : LineId} :
    s.owedStop n = none ↔ ∀ i, EndingOn s n i → (s.line n).stopStands (s.entry i).node = true := by
  simp only [State.owedStop, List.find?_eq_none, allEntries, List.mem_finRange, true_implies, EndingOn]
  refine forall_congr' fun i => ?_
  simp only [Bool.and_eq_true, beq_iff_eq, Bool.not_eq_true', and_assoc]
  constructor
  · rintro h ⟨h1, h2, h3⟩
    refine Classical.byContradiction fun hn => ?_
    exact h ⟨h1, h2, h3, by simpa using hn⟩
  · rintro h ⟨h1, h2, h3, hn⟩
    rw [h ⟨h1, h2, h3⟩] at hn
    cases hn

/-- No stop is owed where no entry has come to ENDING and no stop has gone. -/
theorem owedStop_none_of {s t : State} {n : LineId} (h : s.owedStop n = none)
    (hent : ∀ i, EndingOn t n i → EndingOn s n i ∧ (t.entry i).node = (s.entry i).node)
    (hstop : ∀ node, (s.line n).stopStands node = true → (t.line n).stopStands node = true) : t.owedStop n = none :=
  owedStop_none.mpr fun i hi => by
    obtain ⟨hs, hnode⟩ := hent i hi
    rw [hnode]
    exact hstop _ (owedStop_none.mp h i hs)

/-- A stop for a node waits or is in flight. -/
theorem stopStands_iff {l : LineEngine} {node : Nat} : l.stopStands node = true ↔
    (∃ r ∈ l.pass, r.name = .stopTest ∧ r.node = node) ∨ (∃ c ∈ l.control, c.kind = .stopTest ∧ c.node = node) ∨
      ∃ x, l.engine.exchange = some x ∧ x.work.name = .stopTest ∧ x.node = node := by
  simp only [LineEngine.stopStands, Bool.or_eq_true, List.any_eq_true, Bool.and_eq_true, beq_iff_eq, or_assoc,
    Option.any_eq_true]

theorem placeStops_of_none {s : State} {n : LineId} (h : s.owedStop n = none) : s.placeStops n = s := by
  unfold State.placeStops State.placeStopsUpTo
  rw [h]
  exact ite_self s

/-- Placing stops only puts stops behind the control queue. -/
theorem placeStopsUpTo_line (k : Nat) (n : LineId) (s : State) : ∃ stops : List ControlRequest,
    (∀ c ∈ stops, c.kind = .stopTest) ∧
      (s.placeStopsUpTo k n).line n = { s.line n with control := (s.line n).control ++ stops } := by
  induction k generalizing s with
  | zero => exact ⟨[], by simp, by rw [List.append_nil]; rfl⟩
  | succ k ih =>
    unfold State.placeStopsUpTo
    split
    · split
      · next i hi =>
        obtain ⟨stops, hkind, hline⟩ := ih (s.joinControl n .stopTest i (s.entry i).node)
        rw [joinControl_line] at hline
        refine ⟨{ kind := .stopTest, entry := i, node := (s.entry i).node, mark := s.captureMark .stopTest i } :: stops,
          List.forall_mem_cons.mpr ⟨rfl, hkind⟩, hline.trans ?_⟩
        simp only [List.append_assoc, List.singleton_append]
        rfl
      · exact ⟨[], by simp, by rw [List.append_nil]⟩
    · exact ⟨[], by simp, by rw [List.append_nil]⟩

theorem placeStops_line (s : State) (n : LineId) : ∃ stops : List ControlRequest, (∀ c ∈ stops, c.kind = .stopTest) ∧
    (s.placeStops n).line n = { s.line n with control := (s.line n).control ++ stops } := placeStopsUpTo_line 4 n s

/-- Placed up to the room of the control queue, no stop is owed, or the queue is full. -/
theorem placeStopsUpTo_done {k : Nat} {n : LineId} {s : State} (h : 4 ≤ (s.line n).control.length + k) :
    (s.placeStopsUpTo k n).owedStop n = none ∨ 4 ≤ ((s.placeStopsUpTo k n).line n).control.length := by
  induction k generalizing s with
  | zero => exact .inr h
  | succ k ih =>
    unfold State.placeStopsUpTo
    split
    · split
      · refine ih ?_
        rw [joinControl_line]
        simp only [List.length_append, List.length_singleton]
        omega
      · next hnone => exact .inl hnone
    · next hfull => exact .inr (Nat.not_lt.mp hfull)

theorem placeStops_done (s : State) (n : LineId) :
    (s.placeStops n).owedStop n = none ∨ 4 ≤ ((s.placeStops n).line n).control.length :=
  placeStopsUpTo_done (Nat.le_add_left 4 _)

/-! ### The grant of an IDLE line (R144) -/

section Grant

variable {s : State} {n : LineId}

theorem grant_idle {c : Client} (hidle : (s.line n).engine = .idle) (hc : (s.line n).nextClient = some c) :
    s.grant n = s.grantTo n c := by
  have hi : (s.line n).engine.isIdle = true := by rw [hidle]; rfl
  rw [State.grant, if_pos hi, hc]

theorem grant_none (hc : (s.line n).nextClient = none) : s.grant n = s := by
  rw [State.grant, hc, ite_self]

theorem grantTo_pass {r : PassRequest} {rest : List PassRequest} (h : (s.line n).pass = r :: rest) :
    s.grantTo n .passThrough =
      (s.setLine n { s.line n with pass := rest }).beginExchange n .passThrough (.passThrough r) r.node := by
  unfold State.grantTo
  dsimp only
  rw [h]

theorem grantTo_control {r : ControlRequest} {rest : List ControlRequest} (h : (s.line n).control = r :: rest) :
    s.grantTo n .control =
      (s.setLine n { s.line n with control := rest }).beginExchange n .control (.control r) r.node := by
  unfold State.grantTo
  dsimp only
  rw [h]

theorem grantTo_poll {r : PollRequest} {rest : List PollRequest} (h : (s.line n).polls = r :: rest) :
    s.grantTo n .poll = (s.setLine n { s.line n with polls := rest }).beginExchange n .poll (.poll r)
      (s.entry r.entry).node := by
  unfold State.grantTo
  dsimp only
  rw [h]

theorem hasWork_pass (l : LineEngine) : l.hasWork .passThrough = true ↔ l.pass ≠ [] := by
  simp [LineEngine.hasWork]

theorem hasWork_control (l : LineEngine) : l.hasWork .control = true ↔ l.control ≠ [] := by
  simp [LineEngine.hasWork]

theorem hasWork_poll (l : LineEngine) : l.hasWork .poll = true ↔ l.polls ≠ [] := by
  simp [LineEngine.hasWork]

/-- The client granted has work. -/
theorem hasWork_of_nextClient {l : LineEngine} {c : Client} (h : l.nextClient = some c) : l.hasWork c = true :=
  List.find?_some h

theorem nextClient_none {l : LineEngine} (hp : l.pass = []) (hc : l.control = []) (hl : l.polls = []) :
    l.nextClient = none :=
  List.find?_eq_none.mpr fun c _ hw => by
    cases c with
    | passThrough => exact (hasWork_pass l).mp hw hp
    | control => exact (hasWork_control l).mp hw hc
    | poll => exact (hasWork_poll l).mp hw hl

/-- The client that alone has work is granted whatever the pointer. -/
theorem nextClient_only {l : LineEngine} {c : Client} (hc : l.hasWork c = true)
    (hother : ∀ d, d ≠ c → l.hasWork d = false) : l.nextClient = some c := by
  have hmem : c ∈ l.pointer.rotation := by cases l.pointer <;> cases c <;> decide
  have hfind (r : List Client) (hr : c ∈ r) : r.find? l.hasWork = some c := by
    induction r with
    | nil => cases hr
    | cons d rest ih =>
      by_cases hd : d = c
      · subst hd; exact List.find?_cons_of_pos hc
      · rw [List.find?_cons_of_neg (by rw [hother d hd]; exact Bool.false_ne_true)]
        exact ih ((List.mem_cons.mp hr).resolve_left (Ne.symm hd))
  exact hfind _ hmem

/-- A grant takes no stop away: the one it takes out of a queue is in flight. -/
theorem stopStands_grantTo {c : Client} {node : Nat} (hidle : (s.line n).engine = .idle)
    (h : (s.line n).stopStands node = true) : ((s.grantTo n c).line n).stopStands node = true := by
  have hnone (x : Exchange) : (s.line n).engine.exchange ≠ some x := by
    rw [hidle]; exact fun h => nomatch h
  rw [stopStands_iff] at h ⊢
  cases c with
  | passThrough =>
    rcases hp : (s.line n).pass with _ | ⟨r, rest⟩
    · have hsame : s.grantTo n .passThrough = s := by simp only [State.grantTo, hp]
      rw [hsame]; exact h
    · rw [grantTo_pass hp, beginExchange_line, setLine_line_self]
      rw [hp] at h
      rcases h with ⟨q, hq, hname, hnode⟩ | h | ⟨x, hx, -⟩
      · rcases List.mem_cons.mp hq with rfl | hq
        · exact .inr (.inr ⟨_, rfl, hname, hnode⟩)
        · exact .inl ⟨q, hq, hname, hnode⟩
      · exact .inr (.inl h)
      · exact absurd hx (hnone x)
  | control =>
    rcases hp : (s.line n).control with _ | ⟨r, rest⟩
    · have hsame : s.grantTo n .control = s := by simp only [State.grantTo, hp]
      rw [hsame]; exact h
    · rw [grantTo_control hp, beginExchange_line, setLine_line_self]
      rw [hp] at h
      rcases h with h | ⟨q, hq, hkind, hnode⟩ | ⟨x, hx, -⟩
      · exact .inl h
      · rcases List.mem_cons.mp hq with rfl | hq
        · exact .inr (.inr ⟨_, rfl, by simp only [exchangeOf, Work.name, hkind]; rfl, hnode⟩)
        · exact .inr (.inl ⟨q, hq, hkind, hnode⟩)
      · exact absurd hx (hnone x)
  | poll =>
    rcases hp : (s.line n).polls with _ | ⟨r, rest⟩
    · have hsame : s.grantTo n .poll = s := by simp only [State.grantTo, hp]
      rw [hsame]; exact h
    · rw [grantTo_poll hp, beginExchange_line, setLine_line_self]
      rcases h with h | h | ⟨x, hx, -⟩
      · exact .inl h
      · exact .inr (.inl h)
      · exact absurd hx (hnone x)

theorem endingOn_of_startsOnly {t : State} (h : StartsOnly s t) {i : EntryId} (hi : EndingOn t n i) :
    EndingOn s n i ∧ (t.entry i).node = (s.entry i).node := by
  rcases h i with he | ⟨u, -, he⟩
  · rw [EndingOn, he] at hi
    exact ⟨hi, by rw [he]⟩
  · obtain ⟨-, -, hending⟩ := hi
    rw [he] at hending
    cases hending

theorem owedStop_grant (h : s.owedStop n = none) : (s.grant n).owedStop n = none := by
  refine owedStop_none_of h (fun i => endingOn_of_startsOnly (startsOnly_grant s n)) fun node hnode => ?_
  unfold State.grant
  split
  · next hidle =>
    split
    · exact stopStands_grantTo (LineWork.idle_of_isIdle hidle) hnode
    · exact hnode
  · exact hnode

/-- On a line that owes no stop settling is the grant. -/
theorem settleLine_of_none (h : s.owedStop n = none) : s.settleLine n = s.grant n := by
  rw [State.settleLine, placeStops_of_none h, placeStops_of_none (owedStop_grant h)]

end Grant

/-! ### A settled line -/

/-- Every ENDING entry of a settled line has its stop, but where the control queue is full (R101). -/
theorem settleLine_stops (s : State) (n : LineId) {i : EntryId} (hi : EndingOn (s.settleLine n) n i) :
    ((s.settleLine n).line n).stopStands ((s.settleLine n).entry i).node = true ∨
      4 ≤ ((s.settleLine n).line n).control.length :=
  (placeStops_done _ n).imp_left fun hnone => owedStop_none.mp hnone i hi

/-- Settling a line that is not IDLE puts stops behind its control queue, and touches nothing else of it. -/
theorem settleLine_busy_line {s : State} {n : LineId} (h : (s.line n).engine ≠ .idle) :
    ∃ stops : List ControlRequest, (∀ c ∈ stops, c.kind = .stopTest) ∧
      (s.settleLine n).line n = { s.line n with control := (s.line n).control ++ stops } := by
  have hbusy : (s.line n).engine.isIdle = false := by
    rw [← Bool.not_eq_true]
    exact fun hi => h (LineWork.idle_of_isIdle hi)
  obtain ⟨a, ha, hline⟩ := placeStops_line s n
  obtain ⟨b, hb, hline'⟩ := placeStops_line (s.placeStops n) n
  rw [settleLine_of_busy s n hbusy]
  refine ⟨a ++ b, fun c hc => (List.mem_append.mp hc).elim (ha c) (hb c), ?_⟩
  rw [hline', hline]
  simp only [List.append_assoc]

/-- Settling a line that is not IDLE leaves the entries. -/
theorem settleLine_busy_entries {s : State} {n : LineId} (h : (s.line n).engine ≠ .idle) :
    (s.settleLine n).entries = s.entries := by
  have hbusy : (s.line n).engine.isIdle = false := by
    rw [← Bool.not_eq_true]
    exact fun hi => h (LineWork.idle_of_isIdle hi)
  rw [settleLine_of_busy s n hbusy, placeStops_entries, placeStops_entries]

theorem settleLine_capture {s : State} {n : LineId} (h : s.capture.state ≠ .watching) :
    (s.settleLine n).capture = s.capture := captureFixed_lineWork.settleLine s n h

/-! ### Counts under a start sent -/

/-- A count that does not look at start sent is the same after a grant. -/
theorem count_of_startsOnly {s t : State} (h : StartsOnly s t) {p : Entry → Bool}
    (hp : ∀ e u b, e.state = .pending u → p { e with state := .pending { u with startSent := b } } = p e) :
    t.count p = s.count p := by
  rw [count_eq_countP, count_eq_countP]
  refine List.countP_congr fun i _ => ?_
  rcases h i with he | ⟨u, hu, he⟩
  · rw [he]
  · rw [he, hp _ u true hu]

theorem outOfService_of_startsOnly {s t : State} (h : StartsOnly s t) (g : Fin 32) :
    t.outOfService g = s.outOfService g :=
  count_of_startsOnly h fun e u b hu => by simp only [hu, EntryState.outOfService]

theorem lineActive_of_startsOnly {s t : State} (h : StartsOnly s t) (n : LineId) : t.lineActive n = s.lineActive n :=
  count_of_startsOnly h fun e u b hu => by simp only [hu]; rfl

end Sys2Proof.LineService
end

section
/-! Admission: a record turned away, a record handed off, and the limits every hand-off keeps (R11, R28 to R31, R79 to
R86, R137, R144, R165). -/

namespace Sys2Proof.Admission

open Sys2Proof Sys2Proof.Machine Sys2Proof.Machine.Safety Sys2Proof.Laws Sys2Proof.Walks Sys2Proof.DeviceLaws
  Sys2Proof.ClockAndCalendar Sys2Proof.SchedulingPass Sys2Proof.LineService

/-! ### One request on an IDLE line (R137, R144) -/

section OnlyRequest

variable {s : State} {n : LineId}

theorem grant_only_pass {r : PassRequest} (hidle : (s.line n).engine = .idle) (hp : (s.line n).pass = [r])
    (hc : (s.line n).control = []) (hl : (s.line n).polls = []) : s.grant n =
      (s.setLine n { s.line n with pass := [] }).beginExchange n .passThrough (.passThrough r) r.node := by
  have hnext : (s.line n).nextClient = some .passThrough := nextClient_only (by simp [LineEngine.hasWork, hp])
    fun d hd => by cases d <;> simp_all [LineEngine.hasWork]
  rw [grant_idle hidle hnext, grantTo_pass hp]

theorem grant_only_control {r : ControlRequest} (hidle : (s.line n).engine = .idle) (hp : (s.line n).pass = [])
    (hc : (s.line n).control = [r]) (hl : (s.line n).polls = []) : s.grant n =
      (s.setLine n { s.line n with control := [] }).beginExchange n .control (.control r) r.node := by
  have hnext : (s.line n).nextClient = some .control := nextClient_only (by simp [LineEngine.hasWork, hc])
    fun d hd => by cases d <;> simp_all [LineEngine.hasWork]
  rw [grant_idle hidle hnext, grantTo_control hc]

theorem grant_only_poll {r : PollRequest} (hidle : (s.line n).engine = .idle) (hp : (s.line n).pass = [])
    (hc : (s.line n).control = []) (hl : (s.line n).polls = [r]) : s.grant n =
      (s.setLine n { s.line n with polls := [] }).beginExchange n .poll (.poll r) (s.entry r.entry).node := by
  have hnext : (s.line n).nextClient = some .poll := nextClient_only (by simp [LineEngine.hasWork, hl])
    fun d hd => by cases d <;> simp_all [LineEngine.hasWork]
  rw [grant_idle hidle hnext, grantTo_poll hl]

end OnlyRequest

/-! ### The step of admission (R79, R80) -/

/-- The end of an emptied pass touches the pass state only. -/
theorem endIfEmpty_fields (s : State) : s.endIfEmpty.plan = s.plan ∧
    s.endIfEmpty.passState = (if s.plan = [] then .idle else s.passState) ∧ s.endIfEmpty.entries = s.entries ∧
    s.endIfEmpty.lines = s.lines ∧ s.endIfEmpty.capture = s.capture := by
  unfold State.endIfEmpty
  cases hp : s.plan with
  | nil => exact ⟨rfl, rfl, rfl, rfl, rfl⟩
  | cons r rest => exact ⟨hp, rfl, rfl, rfl, rfl⟩

section Step

variable {s : State} {r : PlanRecord} {rest : List PlanRecord}

/-- The state admission leaves its record in, but for the end of the pass. -/
def afterRecord (s : State) (r : PlanRecord) (rest : List PlanRecord) : State :=
  (State.admitRecord { s with plan := rest } r).settleLine (s.entry r.entry).line

theorem kept_afterRecord (s : State) (r : PlanRecord) (rest : List PlanRecord) :
    Kept { s with plan := rest } (afterRecord s r rest) := (kept_admitRecord _ r).trans (kept_settleLine _ _)

theorem admissionStep_eq (ha : s.armed = true) (hp : s.passState = .admitting) (hplan : s.plan = r :: rest) :
    s.admissionStep = (afterRecord s r rest).endIfEmpty := by
  unfold State.admissionStep
  simp only [hp, ha, hplan, if_true, afterRecord]

/-- Admission takes the record out of the list, and the pass ends with the last (R79, R80). -/
theorem admission_runs (ha : s.armed = true) (hp : s.passState = .admitting) (hplan : s.plan = r :: rest) :
    ∃ t, exec .admission s = .next t ∧ t.plan = rest ∧ t.passState = (if rest = [] then .idle else .admitting) ∧
      t.entries = (afterRecord s r rest).entries ∧ t.lines = (afterRecord s r rest).lines ∧
      t.capture = (afterRecord s r rest).capture := by
  have hkept := kept_afterRecord s r rest
  have hrest : (afterRecord s r rest).plan = rest := hkept.plan
  have hstate : (afterRecord s r rest).passState = .admitting := hkept.passState.trans hp
  obtain ⟨hplan', hpass, hentries, hlines, hcapture⟩ := endIfEmpty_fields (afterRecord s r rest)
  rw [hrest] at hplan'
  rw [hrest, hstate] at hpass
  exact ⟨_, congrArg Host.Outcome.next (admissionStep_eq ha hp hplan), hplan', hpass, hentries, hlines, hcapture⟩

theorem admissionResult_plan : State.admissionResult { s with plan := rest } r = s.admissionResult r := rfl

theorem afterRecord_dropped (h : s.admissionResult r = .dropped) :
    afterRecord s r rest = State.settleLine { s with plan := rest } (s.entry r.entry).line := by
  unfold afterRecord State.admitRecord
  rw [admissionResult_plan, h]

theorem afterRecord_blocked {reason : BlockReason} (h : s.admissionResult r = .blocked reason) :
    afterRecord s r rest =
      (State.setBlock { s with plan := rest } r.entry reason).settleLine (s.entry r.entry).line := by
  unfold afterRecord State.admitRecord
  rw [admissionResult_plan, h]

theorem afterRecord_admitted (h : s.admissionResult r = .admitted) :
    afterRecord s r rest = (State.handOff { s with plan := rest } r).settleLine (s.entry r.entry).line := by
  unfold afterRecord State.admitRecord
  rw [admissionResult_plan, h]

/-- A turned-away entry shows the reason and stays READY. -/
theorem afterRecord_blocked_entry {reason : BlockReason} (h : s.admissionResult r = .blocked reason)
    (hr : (s.entry r.entry).state = .ready) : (afterRecord s r rest).entry r.entry =
      { s.entry r.entry with lastBlock := some reason } := by
  have hset : (State.setBlock { s with plan := rest } r.entry reason).entry r.entry =
      { s.entry r.entry with lastBlock := some reason } := setBlock_entry_self _ _ _
  rw [afterRecord_blocked h, (startsOnly_settleLine _ _).same r.entry fun u hu => ?_, hset]
  rw [hset] at hu
  exact EntryState.noConfusion (hr.symm.trans hu)

/-- A dropped record leaves the block reason and, of a READY entry, all. -/
theorem afterRecord_dropped_entry (h : s.admissionResult r = .dropped) :
    ((afterRecord s r rest).entry r.entry).lastBlock = (s.entry r.entry).lastBlock ∧
      ((s.entry r.entry).state = .ready → ((afterRecord s r rest).entry r.entry).state = .ready) := by
  rw [afterRecord_dropped h]
  rcases startsOnly_settleLine { s with plan := rest } (s.entry r.entry).line r.entry with he | ⟨u, hu, he⟩
  · rw [he]; exact ⟨rfl, id⟩
  · rw [he]
    exact ⟨rfl, fun hr => EntryState.noConfusion (hr.symm.trans hu)⟩

theorem spanLength_eq (e : Entry) (k : Kind) : e.spanLength k = if k = .function then 1 else e.rated := by
  cases k <;> rfl

/-- A record whose entry is not in use, READY and not barred is dropped (R81). -/
theorem dropped_of (h : ¬((s.entry r.entry).inUse = true ∧ (s.entry r.entry).state = .ready ∧
    (s.entry r.entry).barred = false)) : s.admissionResult r = .dropped := by
  unfold State.admissionResult
  dsimp only
  split
  · rfl
  · next hin =>
    split
    · rfl
    · next hready =>
      refine if_pos ?_
      refine Classical.byContradiction fun hbar => ?_
      exact h ⟨by simpa using hin, isReady_iff.mp (by simpa using hready), by simpa using hbar⟩

/-- Settles O15: the checks in their order, each with its reason. -/
theorem admissionTurnsAway : Obligations.AdmissionTurnsAway := by
  intro s r rest ha hp hplan e span ok1 ok2 ok3 ok4 ok5 ok6 ok7
  obtain ⟨t, ht, hplan', hpass, hentries, -, -⟩ := admission_runs ha hp hplan
  have hentry : t.entry r.entry = (afterRecord s r rest).entry r.entry := entry_congr hentries _
  have blocked {reason : BlockReason} (h1 : ok1) (h : s.admissionResult r = .blocked reason) :
      (t.entry r.entry).lastBlock = some reason := by
    rw [hentry, afterRecord_blocked_entry h h1.2.1]
  have hready (h1 : ok1) : e.state.isReady = true := isReady_iff.mpr h1.2.1
  have hclear (h : s.inOutage e.line = false ∧ (s.mainsLine e.line).holdOff = 0) :
      (s.inOutage e.line || s.inHoldOff e.line) = false := by rw [h.1, inHoldOff_false.mpr h.2]; rfl
  have hspan : span = s.spanPermitted s.minute (e.spanLength r.kind) (s.groupOf e).occupancy := by
    rw [spanLength_eq]; rfl
  have result1 (h1 : ok1) : s.admissionResult r =
      if e.held then .blocked .held
      else if s.inOutage e.line || s.inHoldOff e.line then .blocked .outage
      else if s.lineDown e.line then .blocked .lineDown
      else if !span then .blocked .calendar
      else if !s.quotaOk e.group then .blocked .quota
      else if 12 ≤ s.lineActive e.line then .blocked .lineLimit
      else if 4 ≤ (s.line e.line).control.length then .blocked .controlFull
      else .admitted := by
    have hin : (!(s.entry r.entry).inUse) = false := by rw [h1.1]; rfl
    have hrd : (!(s.entry r.entry).state.isReady) = false := by rw [hready h1]; rfl
    rw [hspan]
    unfold State.admissionResult
    dsimp only
    rw [hin, hrd, h1.2.2]
    rfl
  have result3 (h3 : ok3) : s.admissionResult r =
      if s.lineDown e.line then .blocked .lineDown
      else if !span then .blocked .calendar
      else if !s.quotaOk e.group then .blocked .quota
      else if 12 ≤ s.lineActive e.line then .blocked .lineLimit
      else if 4 ≤ (s.line e.line).control.length then .blocked .controlFull
      else .admitted := by
    rw [result1 h3.1.1, h3.1.2, hclear h3.2]
    rfl
  have result5 (h5 : ok5) : s.admissionResult r =
      if !s.quotaOk e.group then .blocked .quota
      else if 12 ≤ s.lineActive e.line then .blocked .lineLimit
      else if 4 ≤ (s.line e.line).control.length then .blocked .controlFull
      else .admitted := by
    rw [result3 h5.1.1, lineDown_false.mpr h5.1.2, h5.2]
    rfl
  have hquota : s.quotaOk e.group = true ↔ s.outOfService e.group < s.quota e.group := by simp [State.quotaOk]
  refine ⟨t, ht, hplan', hpass, fun h1 => ?_, fun h1 h => blocked h1 ?_, fun h2 h => blocked h2.1 ?_,
    fun h3 h => blocked h3.1.1 ?_, fun h4 h => blocked h4.1.1.1 ?_, fun h5 h => blocked h5.1.1.1.1 ?_,
    fun h6 h => blocked h6.1.1.1.1.1 ?_, fun h7 h => blocked h7.1.1.1.1.1.1 ?_, fun h1 h => ?_⟩
  · rw [hentry]
    exact (afterRecord_dropped_entry (dropped_of h1)).1
  · rw [result1 h1, if_pos h]
  · have houtage : (s.inOutage e.line || s.inHoldOff e.line) = true := by
      simpa [State.inHoldOff] using h
    rw [result1 h2.1, h2.2, if_neg Bool.false_ne_true, if_pos houtage]
  · rw [result3 h3, if_pos (lineDown_iff.mpr h)]
  · rw [result3 h4.1, lineDown_false.mpr h4.2, h]
    rfl
  · rw [result5 h5, if_pos (by rw [Bool.not_eq_true', ← Bool.not_eq_true, hquota]; omega)]
  · rw [result5 h6.1, hquota.mpr h6.2, if_pos h]
    rfl
  · rw [result5 h7.1.1, hquota.mpr h7.1.2, if_neg (by omega : ¬12 ≤ s.lineActive e.line), if_pos h]
    rfl
  · rw [hentry]
    cases hres : s.admissionResult r with
    | dropped => exact (afterRecord_dropped_entry hres).2 h1.2.1
    | blocked reason => rw [afterRecord_blocked_entry hres h1.2.1]; exact h1.2.1
    | admitted =>
      obtain ⟨hin, hst, hbar, hheld, hout, hoff, hdown, hsp, hq, hact, hctl⟩ := admitted_iff.mp hres
      refine absurd ⟨⟨⟨⟨⟨⟨⟨hin, hst, hbar⟩, hheld⟩, hout, inHoldOff_false.mp hoff⟩, lineDown_false.mp hdown⟩, ?_⟩,
        hquota.mp hq⟩, hact⟩ (fun h7 => h ⟨h7, hctl⟩)
      rw [hspan]
      exact hsp

end Step

end Sys2Proof.Admission
end

section
/-! The hand-off of an admitted record, and the limits every hand-off keeps (R11, R28 to R31, R52, R82 to R86, R137,
R144, R165). -/

namespace Sys2Proof.HandOff

open Sys2Proof Sys2Proof.Machine Sys2Proof.Machine.Safety Sys2Proof.Laws Sys2Proof.Walks Sys2Proof.DeviceLaws
  Sys2Proof.ClockAndCalendar Sys2Proof.SchedulingPass Sys2Proof.LineService Sys2Proof.Admission

/-! ### The move into PENDING (R86) -/

theorem toPending_state (e : Entry) (k : Kind) (o : Origin) :
    (e.toPending k o).state = .pending (.fresh k o) := rfl

section Rule

variable {s : State} {r : PlanRecord}

theorem handOff_entry (s : State) (r : PlanRecord) (j : EntryId) : (s.handOff r).entry j =
    if r.entry = j then (s.entry r.entry).toPending r.kind .scheduler else s.entry j := by
  unfold State.handOff
  rw [entry_congr (joinControl_entries _ _ _ _ _), setEntry_entry]

/-- The start request of a record. -/
def startOf (s : State) (r : PlanRecord) (mark : Option Nat) : ControlRequest where
  kind := (s.entry r.entry).startRequest r.kind
  entry := r.entry
  node := (s.entry r.entry).node
  mark := mark

theorem handOff_line (s : State) (r : PlanRecord) : ∃ mark, (s.handOff r).line (s.entry r.entry).line =
    { s.line (s.entry r.entry).line with
      control := (s.line (s.entry r.entry).line).control ++ [startOf s r mark] } := by
  unfold State.handOff
  exact ⟨_, joinControl_line _ _ _ _ _⟩

/-- A hand-off brings no entry to ENDING and takes no stop. -/
theorem owedStop_handOff (h : s.owedStop (s.entry r.entry).line = none) :
    (s.handOff r).owedStop (s.entry r.entry).line = none := by
  obtain ⟨mark, hline⟩ := handOff_line s r
  refine owedStop_none_of h (fun i hi => ?_) fun node hnode => ?_
  · rw [EndingOn, handOff_entry] at hi
    rw [handOff_entry]
    split
    · next hr =>
      rw [if_pos hr] at hi
      obtain ⟨-, -, hending⟩ := hi
      cases hending
    · next hr =>
      rw [if_neg hr] at hi
      exact ⟨hi, rfl⟩
  · rw [hline]
    rw [stopStands_iff] at hnode ⊢
    rcases hnode with h | ⟨c, hc, h⟩ | h
    · exact .inl h
    · exact .inr (.inl ⟨c, List.mem_append_left _ hc, h⟩)
    · exact .inr (.inr h)

theorem startRequest_eq (e : Entry) (k : Kind) :
    e.startRequest k = if k = .function then .startFunction else .startDuration e.rated := by
  cases k <;> rfl

theorem startRequest_name (e : Entry) (k : Kind) :
    (e.startRequest k).name = if k = .function then .startFunction else .startDuration := by
  cases k <;> rfl

theorem startRequest_isStart (e : Entry) (k : Kind) : (e.startRequest k).name.isStart = true := by
  cases k <;> rfl

theorem startRequest_cls (e : Entry) (k : Kind) : (e.startRequest k).name.cls = .test := by
  cases k <;> rfl

/-- The only request of an IDLE line that owes no stop begins its exchange at once (R137, R144). -/
theorem settleLine_only_control {b : State} {n : LineId} {c : ControlRequest} (hidle : (b.line n).engine = .idle)
    (hp : (b.line n).pass = []) (hc : (b.line n).control = [c]) (hl : (b.line n).polls = [])
    (howed : b.owedStop n = none) : (b.settleLine n).line n = { b.line n with
      control := [], engine := .sending (exchangeOf (b.line n) (.control c) c.node)
      exchangeNumber := (b.line n).exchangeNumber + 1, pointer := .control } ∧
    ∀ u, c.kind.name.isStart = true → (b.entry c.entry).state = .pending u →
      (b.settleLine n).entry c.entry = { b.entry c.entry with state := .pending { u with startSent := true } } := by
  rw [settleLine_of_none howed, grant_only_control hidle hp hc hl]
  refine ⟨?_, fun u hstart hu => ?_⟩
  · rw [beginExchange_line, setLine_line_self]
    rfl
  · have hsame : (b.setLine n { b.line n with control := [] }).entry c.entry = b.entry c.entry :=
      entry_congr (setLine_entries _ _ _) _
    rw [← hsame]
    rw [← hsame] at hu
    exact beginExchange_pending (w := .control c) hstart hu

/-- On an IDLE line without other work the exchange of the start begins at once (R137, R144). -/
theorem handOff_granted {b : State} {r : PlanRecord} {e : Entry} (he : b.entry r.entry = e)
    (hidle : (b.line e.line).engine = .idle) (hp : (b.line e.line).pass = []) (hc : (b.line e.line).control = [])
    (hl : (b.line e.line).polls = []) (howed : b.owedStop e.line = none) :
    (((b.handOff r).settleLine e.line).entry r.entry).state =
        .pending { CurrentTest.fresh r.kind .scheduler with startSent := true } ∧
      ∃ mark, ((b.handOff r).settleLine e.line).line e.line = { b.line e.line with
        engine := .sending (exchangeOf (b.line e.line) (.control (startOf b r mark)) e.node)
        exchangeNumber := (b.line e.line).exchangeNumber + 1, pointer := .control } := by
  obtain ⟨mark, hline⟩ := handOff_line b r
  have hpending : ((b.handOff r).entry r.entry).state = .pending (.fresh r.kind .scheduler) := by
    rw [handOff_entry, if_pos rfl, toPending_state]
  have howed' := owedStop_handOff (r := r) (by rw [he]; exact howed)
  rw [he] at hline howed'
  have hnode : (startOf b r mark).node = e.node := congrArg Entry.node he
  generalize hstart : startOf b r mark = c at *
  generalize b.handOff r = h at *
  have hentry : c.entry = r.entry := by rw [← hstart]; rfl
  have hname : c.kind.name.isStart = true := by rw [← hstart]; exact startRequest_isStart _ _
  obtain ⟨hsent, hstate⟩ := settleLine_only_control (c := c) (n := e.line) (b := h) (by rw [hline]; exact hidle)
    (by rw [hline]; exact hp) (by rw [hline, hc]; rfl) (by rw [hline]; exact hl) howed'
  rw [hentry] at hstate
  refine ⟨?_, mark, ?_⟩
  · rw [hstate _ hname hpending]
  · rw [hsent, hline, hstart, hnode, ← hc]
    rfl

/-- While the line is not IDLE the start stands behind what the control queue held, unsent. -/
theorem handOff_waits {b : State} {r : PlanRecord} {e : Entry} (he : b.entry r.entry = e)
    (hbusy : (b.line e.line).engine ≠ .idle) :
    (((b.handOff r).settleLine e.line).entry r.entry).state = .pending (.fresh r.kind .scheduler) ∧ ∃ mark stops,
      (((b.handOff r).settleLine e.line).line e.line).control =
        (b.line e.line).control ++ [startOf b r mark] ++ stops := by
  obtain ⟨mark, hline⟩ := handOff_line b r
  rw [he] at hline
  have hbusy' : ((b.handOff r).line e.line).engine ≠ .idle := by rw [hline]; exact hbusy
  obtain ⟨stops, -, hsettled⟩ := settleLine_busy_line hbusy'
  refine ⟨?_, mark, stops, ?_⟩
  · rw [entry_congr (settleLine_busy_entries hbusy'), handOff_entry, if_pos rfl, toPending_state]
  · rw [hsettled, hline]

/-- What settling leaves of an entry handed off. -/
theorem handOff_settled_entry (s : State) (r : PlanRecord) (n : LineId) : ∃ sent,
    ((s.handOff r).settleLine n).entry r.entry = { (s.entry r.entry).toPending r.kind .scheduler with
      state := .pending { CurrentTest.fresh r.kind .scheduler with startSent := sent } } := by
  have hentry : (s.handOff r).entry r.entry = (s.entry r.entry).toPending r.kind .scheduler := by
    rw [handOff_entry, if_pos rfl]
  rcases startsOnly_settleLine (s.handOff r) n r.entry with he | ⟨u, hu, he⟩
  · exact ⟨false, he.trans hentry⟩
  · rw [hentry] at hu he
    cases hu
    exact ⟨true, he⟩

/-- A watching capture that the start matches opens its record for it (R165). -/
theorem handOff_capture (hm : s.captureMatches ((s.entry r.entry).startRequest r.kind).name r.entry = true)
    (n : LineId) : ((s.handOff r).settleLine n).capture.state = .opened
      { origin := .bridge, name := ((s.entry r.entry).startRequest r.kind).name,
        arg := ((s.entry r.entry).startRequest r.kind).arg, line := (s.entry r.entry).line,
        node := (s.entry r.entry).node, clock := if s.clockValid then some s.minute else none, answer := none }
      s.capture.nextMark := by
  have hm' : (s.setEntry r.entry ((s.entry r.entry).toPending r.kind .scheduler)).captureMatches
      ((s.entry r.entry).startRequest r.kind).name r.entry = true := by
    rw [captureMatches_iff] at hm ⊢
    rw [setEntry_entry_self]
    exact hm
  have hopened : (s.handOff r).capture.state = _ := captureOffer_opened .bridge
    ((s.entry r.entry).startRequest r.kind).arg (s.entry r.entry).line (s.entry r.entry).node hm'
  rw [settleLine_capture (by rw [hopened]; exact fun h => nomatch h), hopened]
  rfl

/-- A hand-off of a READY entry raises its group's O and its line's active count by one. -/
theorem handOff_counts (hin : (s.entry r.entry).inUse = true) (hready : (s.entry r.entry).state = .ready) (n : LineId) :
    ((s.handOff r).settleLine n).outOfService (s.entry r.entry).group =
        s.outOfService (s.entry r.entry).group + 1 ∧
      ((s.handOff r).settleLine n).lineActive (s.entry r.entry).line = s.lineActive (s.entry r.entry).line + 1 := by
  have hstarts := startsOnly_settleLine (s.handOff r) n
  have hcount (p : Entry → Bool) : (s.handOff r).count p =
      (s.setEntry r.entry ((s.entry r.entry).toPending r.kind .scheduler)).count p :=
    count_congr (joinControl_entries _ _ _ _ _) p
  have hraised {p : Entry → Bool} (hold : p (s.entry r.entry) = false)
      (hnew : p ((s.entry r.entry).toPending r.kind .scheduler) = true) : (s.handOff r).count p = s.count p + 1 := by
    have hset := count_setEntry s r.entry ((s.entry r.entry).toPending r.kind .scheduler) p
    rw [hold, hnew] at hset
    rw [hcount]
    simpa using hset
  rw [outOfService_of_startsOnly hstarts, lineActive_of_startsOnly hstarts]
  refine ⟨hraised ?_ ?_, hraised ?_ ?_⟩
  · simp [hready, EntryState.outOfService]
  · simp [Entry.toPending, EntryState.outOfService, hin]
  · simp [hready, EntryState.underTest]
  · simp [Entry.toPending, EntryState.underTest, hin]

end Rule

/-! ### Admission hands off (R86) -/

theorem armed_clockValid {s : State} (h : s.armed = true) : s.clockValid = true := by
  obtain ⟨-, hclock, -⟩ := (armed_iff s).mp h
  exact hclock

theorem startRequest_arg (e : Entry) (k : Kind) : (e.startRequest k).arg =
    (if k = .function then ControlKind.startFunction else .startDuration e.rated).arg := by
  cases k <;> rfl

/-- Settles O16: the hand-off on an IDLE line and on another. -/
theorem admissionHandsOff : Obligations.AdmissionHandsOff := by
  intro s r rest ha hp hplan
  dsimp only
  generalize he : s.entry r.entry = e
  intro hin hready hbar hheld hout hoff hup hspan hquota hactive hroom
  obtain ⟨t, ht, hplan', hpass, hentries, hlines, hcapture⟩ := admission_runs ha hp hplan
  have hadmitted : s.admissionResult r = .admitted := by
    subst he
    exact admitted_iff.mpr ⟨hin, hready, hbar, hheld, hout, inHoldOff_false.mpr hoff, lineDown_false.mpr hup,
      by rw [spanLength_eq]; exact hspan, by simpa [State.quotaOk] using hquota, hactive, hroom⟩
  rw [afterRecord_admitted hadmitted, he] at hentries hlines hcapture
  obtain ⟨b, hb⟩ : ∃ b : State, { s with plan := rest } = b := ⟨_, rfl⟩
  have hbe : b.entry r.entry = e := by rw [← hb, ← he]; rfl
  have hbl : b.line e.line = s.line e.line := by rw [← hb]; rfl
  have hbc : b.capture = s.capture := by rw [← hb]
  have hbt : b.clockValid = true ∧ b.minute = s.minute := by rw [← hb]; exact ⟨armed_clockValid ha, rfl⟩
  have hbo : b.owedStop e.line = s.owedStop e.line := by rw [← hb]; rfl
  have hO : b.outOfService e.group = s.outOfService e.group := by rw [← hb]; rfl
  have hA : b.lineActive e.line = s.lineActive e.line := by rw [← hb]; rfl
  rw [hb] at hentries hlines hcapture
  obtain ⟨sent, hsent⟩ := handOff_settled_entry b r e.line
  have hcounts := handOff_counts (s := b) (r := r) (by rw [hbe]; exact hin) (by rw [hbe]; exact hready) e.line
  have hOt : t.outOfService e.group = _ := count_congr hentries _
  have hAt : t.lineActive e.line = _ := count_congr hentries _
  rw [hbe, hO, hA] at hcounts
  have hentry : t.entry r.entry = _ := entry_congr hentries r.entry
  have hline : t.line e.line = _ := line_congr hlines e.line
  rw [hsent, hbe] at hentry
  have hrun := congrArg Entry.state hentry
  refine ⟨t, sent, ht, hplan', hpass, hrun, ?_, ?_, ?_, ?_, ?_, fun hwatch htarget hmode => ?_,
    fun hidle hp hc hl howed => ?_, hOt.trans hcounts.1, hAt.trans hcounts.2, fun hbusy => ?_⟩
  · rw [hentry]; rfl
  · rw [hentry]; rfl
  · rw [hentry]; rfl
  · rw [hentry]; rfl
  · rw [hentry]; rfl
  · have hmatch : b.captureMatches ((b.entry r.entry).startRequest r.kind).name r.entry = true := by
      rw [captureMatches_iff, hbe, hbc, startRequest_cls]
      refine ⟨hwatch, hin, htarget.symm, ?_⟩
      rcases hmode with h | h
      · rw [h]; rfl
      · rw [h]; rfl
    have hopened := handOff_capture hmatch e.line
    rw [hbe, startRequest_name, startRequest_arg, hbt.1, hbt.2, hbc, if_pos rfl] at hopened
    rw [hcapture, hopened]
  · rw [← hbl] at hidle hp hc hl
    obtain ⟨hstate, mark, hgranted⟩ := handOff_granted hbe hidle hp hc hl (hbo.trans howed)
    rw [hsent] at hstate
    refine ⟨congrArg CurrentTest.startSent (EntryState.pending.inj hstate), mark, ?_⟩
    rw [hline, hgranted, hbl, startOf, hbe, startRequest_eq]
    rfl
  · rw [← hbl] at hbusy
    obtain ⟨hstate, mark, stops, hcontrol⟩ := handOff_waits hbe hbusy
    rw [hsent] at hstate
    refine ⟨congrArg CurrentTest.startSent (EntryState.pending.inj hstate), mark, stops, ?_⟩
    rw [hline, hcontrol, hbl, startOf, hbe, startRequest_eq]

end Sys2Proof.HandOff
end

section
/-! The limits every hand-off of the Scheduler keeps (R11, R28 to R31, R52, R82, R83). -/

namespace Sys2Proof.HandOffLimits

open Sys2Proof Sys2Proof.Machine Sys2Proof.Machine.Safety Sys2Proof.Laws Sys2Proof.Walks Sys2Proof.DeviceLaws
  Sys2Proof.ClockAndCalendar Sys2Proof.SchedulingPass Sys2Proof.LineService Sys2Proof.Admission Sys2Proof.HandOff

/-! ### The counts (R10, R28 to R30) -/

theorem underTest_iff {st : EntryState} :
    st.underTest = true ↔ ∃ u, st = .pending u ∨ st = .testing u ∨ st = .ending u := by
  cases st <;> simp [EntryState.underTest]

theorem outOfService_iff {st : EntryState} : st.outOfService = true ↔
    (∃ u, st = .pending u ∨ st = .testing u ∨ st = .ending u) ∨ ∃ left, st = .recharging left := by
  cases st <;> simp [EntryState.outOfService]

theorem quotaOf_zero (n : Nat) : quotaOf 0 n = 0 := if_pos rfl

theorem quotaOf_share {percent n : Nat} (hp : 1 ≤ percent) (h : 1 ≤ n * percent / 100 ∨ n = 0) :
    quotaOf percent n = n * percent / 100 := by
  rw [quotaOf, if_neg (by omega), if_neg (by omega)]

theorem quotaOf_small {percent n : Nat} (hp : 1 ≤ percent) (h : n * percent / 100 = 0) (hn : 1 ≤ n) :
    quotaOf percent n = 1 := by
  rw [quotaOf, if_neg (by omega), if_pos ⟨h, hn⟩]

/-! ### Who comes under test -/

variable {s t : State}

theorem StartsOnly.underTest (h : StartsOnly s t) (i : EntryId) :
    (t.entry i).state.underTest = (s.entry i).state.underTest := by
  rcases h i with he | ⟨u, hu, he⟩
  · rw [he]
  · rw [he, hu]
    rfl

theorem admitRecord_dropped {r : PlanRecord} (h : s.admissionResult r = .dropped) : s.admitRecord r = s := by
  rw [State.admitRecord, h]

theorem admitRecord_blocked {r : PlanRecord} {reason : BlockReason} (h : s.admissionResult r = .blocked reason) :
    s.admitRecord r = s.setBlock r.entry reason := by
  rw [State.admitRecord, h]

theorem admitRecord_admitted {r : PlanRecord} (h : s.admissionResult r = .admitted) :
    s.admitRecord r = s.handOff r := by
  rw [State.admitRecord, h]

/-- Only the entry of an admitted record comes under test. -/
theorem admitRecord_underTest {r : PlanRecord} {i : EntryId} (hold : (s.entry i).state.underTest = false)
    (hnew : ((s.admitRecord r).entry i).state.underTest = true) : r.entry = i ∧ s.admissionResult r = .admitted := by
  cases hres : s.admissionResult r with
  | dropped =>
    rw [admitRecord_dropped hres, hold] at hnew
    cases hnew
  | blocked reason =>
    have hstate : ((s.setBlock r.entry reason).entry i).state = (s.entry i).state := by
      rw [setBlock_entry]
      split
      · next h => rw [← h]
      · rfl
    rw [admitRecord_blocked hres, hstate, hold] at hnew
    cases hnew
  | admitted =>
    refine ⟨?_, rfl⟩
    refine Classical.byContradiction fun hne => ?_
    rw [admitRecord_admitted hres, handOff_entry, if_neg hne, hold] at hnew
    cases hnew

/-- A step of admission leaves the entries, or takes the first record. -/
theorem admissionStep_entries (s : State) : s.admissionStep.entries = s.entries ∨
    ∃ r rest, s.admissionStep.entries = (afterRecord s r rest).entries := by
  unfold State.admissionStep
  split
  · split
    · split
      · exact .inl rfl
      · next r rest hplan =>
        obtain ⟨-, -, hentries, -, -⟩ := endIfEmpty_fields (afterRecord s r rest)
        exact .inr ⟨r, rest, hentries⟩
    · exact .inl rfl
  · exact .inl rfl
  · exact .inl rfl

/-- Settles O17: only a record that passes every check takes its entry to PENDING. -/
theorem schedulerRespectsQuota : Obligations.SchedulerRespectsQuota := by
  refine ⟨fun st => ⟨underTest_iff, outOfService_iff⟩, fun s g n => ?_, fun s t i hrun hold hnew => ?_⟩
  · intro number members percent
    have hmembers : s.members g = members := count_eq_countP _ _
    have hquota : s.quota g = quotaOf percent members := by rw [← hmembers]; rfl
    refine ⟨count_eq_countP _ _, count_eq_countP _ _, hmembers, fun h => ?_, fun hp h => ?_, fun hp h hn => ?_⟩
    · rw [hquota, h, quotaOf_zero]
    · rw [hquota, quotaOf_share hp h]
    · rw [hquota, quotaOf_small hp h hn]
  · have ht : t = s.admissionStep := (Host.Outcome.next.inj hrun).symm
    rcases admissionStep_entries s with he | ⟨r, rest, he⟩
    · rw [ht, entry_congr he, hold] at hnew
      cases hnew
    · have hentry : t.entry i = (afterRecord s r rest).entry i := by rw [ht, entry_congr he]
      obtain ⟨b, hb⟩ : ∃ b : State, { s with plan := rest } = b := ⟨_, rfl⟩
      have hbe (j : EntryId) : b.entry j = s.entry j := by rw [← hb]; rfl
      have hafter : afterRecord s r rest = (b.admitRecord r).settleLine (s.entry r.entry).line := by
        rw [← hb]; rfl
      have hnew' := hnew
      rw [hentry, hafter, StartsOnly.underTest (startsOnly_settleLine _ _)] at hnew'
      obtain ⟨hr, hadmitted⟩ := admitRecord_underTest (by rw [hbe]; exact hold) hnew'
      have hs : s.admissionResult r = .admitted := by rw [← hadmitted, ← hb]; rfl
      obtain ⟨-, -, -, -, -, -, -, hspan, hquota, hactive, -⟩ := admitted_iff.mp hs
      obtain ⟨sent, hsent⟩ := handOff_settled_entry b r (s.entry r.entry).line
      rw [hafter, admitRecord_admitted hadmitted, ← hr, hsent] at hentry
      rw [spanLength_eq] at hspan
      rw [← hr]
      exact ⟨of_decide_eq_true hquota, hactive, _, congrArg Entry.state hentry, hspan⟩

end Sys2Proof.HandOffLimits
end

section
/-! Poll due at 0 places a PROBE (R96, R143, R144, R165). -/

namespace Sys2Proof.Probes

open Sys2Proof Sys2Proof.Machine Sys2Proof.Machine.Safety Sys2Proof.Laws Sys2Proof.Walks Sys2Proof.DeviceLaws
  Sys2Proof.LineService Sys2Proof.Admission Sys2Proof.HandOff

variable {s : State} {i : EntryId} {u : CurrentTest}

/-- The only PROBE of an IDLE line that owes no stop begins its exchange at once (R137, R144). -/
theorem settleLine_only_poll {b : State} {n : LineId} {p : PollRequest} (hidle : (b.line n).engine = .idle)
    (hp : (b.line n).pass = []) (hc : (b.line n).control = []) (hl : (b.line n).polls = [p])
    (howed : b.owedStop n = none) : (b.settleLine n).line n = { b.line n with
      polls := [], engine := .sending (exchangeOf (b.line n) (.poll p) (b.entry p.entry).node)
      exchangeNumber := (b.line n).exchangeNumber + 1, pointer := .poll } := by
  rw [settleLine_of_none howed, grant_only_poll hidle hp hc hl, beginExchange_line, setLine_line_self]
  rfl

/-- An entry reloaded with its line's poll period. -/
def reloaded (s : State) (i : EntryId) (u : CurrentTest) : State :=
  s.setEntryState i (.testing { u with pollDue := (s.line (s.entry i).line).settings.pollPeriod })

theorem pollDue_testing (h : (s.entry i).state = .testing u) : s.pollDue i = (reloaded s i u).joinPoll i := by
  rw [State.pollDue, h]
  rfl

theorem reloaded_entry (s : State) (i : EntryId) (u : CurrentTest) : (reloaded s i u).entry i = { s.entry i with
    state := .testing { u with pollDue := (s.line (s.entry i).line).settings.pollPeriod } } := by
  rw [reloaded, setEntryState_entry, if_pos rfl]

theorem reloaded_ending {j : EntryId} {n : LineId} (h : EndingOn (reloaded s i u) n j) :
    EndingOn s n j ∧ ((reloaded s i u).entry j).node = (s.entry j).node := by
  rw [EndingOn, reloaded, setEntryState_entry] at h
  rw [reloaded, setEntryState_entry]
  split
  · next hij =>
    rw [if_pos hij] at h
    obtain ⟨-, -, hending⟩ := h
    cases hending
  · next hij =>
    rw [if_neg hij] at h
    exact ⟨h, rfl⟩

theorem countP_waiting {l : List PollRequest} :
    l.any (fun p => p.entry == i) = false ↔ l.countP (fun p => p.entry == i) = 0 := by
  rw [List.countP_eq_zero, List.any_eq_false]

/-- Settles O18: on an IDLE line the PROBE goes, on another it waits. -/
theorem pollDuePlacesProbe : Obligations.PollDuePlacesProbe := by
  intro s i u hu n l
  obtain ⟨a, ha⟩ : ∃ a, reloaded s i u = a := ⟨_, rfl⟩
  obtain ⟨b, hb⟩ : ∃ b, a.joinPoll i = b := ⟨_, rfl⟩
  have hae := reloaded_entry s i u
  rw [ha] at hae
  have han : (a.entry i).line = n := by rw [hae]
  have hal : a.line n = l := by rw [← ha]; rfl
  have hbe : b.entry i = a.entry i := by rw [← hb]; exact entry_congr (joinPoll_entries _ _) _
  have hrun : exec (.pollDue i) s = .next (b.settleLine n) := by
    rw [← hb, ← ha, ← pollDue_testing hu]
    rfl
  have hwaits (h : l.polls.any (fun p => p.entry == i) = true) : b = a := by
    rw [← hb]
    exact joinPoll_waiting (by rw [han, hal]; exact h)
  have hnew (h : l.polls.any (fun p => p.entry == i) = false) :
      b.line n = { l with polls := insertPoll { entry := i, mark := a.captureMark .probe i } l.polls } := by
    have hline := joinPoll_line (s := a) (i := i) (by rw [han, hal]; exact h)
    rw [hb, han, hal] at hline
    exact hline
  have hengine : (b.line n).engine = l.engine := by
    cases hw : l.polls.any (fun p => p.entry == i) with
    | true => rw [hwaits hw, hal]
    | false => rw [hnew hw]
  refine ⟨b.settleLine n, hrun, ?_, fun hbusy => ⟨fun h => ?_, fun h => ?_⟩,
    fun hwatch hmode hin htarget h => ?_, fun hidle hp hc hl howed => ?_⟩
  · rw [(startsOnly_settleLine b n).same i (by rw [hbe, hae]; exact fun v h => nomatch h), hbe, hae]
  · obtain ⟨stops, -, hline⟩ := settleLine_busy_line (s := b) (n := n) (by rw [hengine]; exact hbusy)
    rw [hline, hnew (countP_waiting.mpr h)]
    dsimp only
    rw [(insertPoll_perm _ _).countP_eq, List.countP_cons, h, beq_self_eq_true, if_pos rfl]
  · obtain ⟨stops, -, hline⟩ := settleLine_busy_line (s := b) (n := n) (by rw [hengine]; exact hbusy)
    have hw : l.polls.any (fun p => p.entry == i) = true := by
      rw [← Bool.not_eq_false, countP_waiting]
      exact h
    rw [hline, hwaits hw, hal]
  · have hw := countP_waiting.mpr h
    have hmatch : a.captureMatches .probe i = true := by
      refine captureMatches_iff.mpr ⟨?_, ?_, ?_, ?_⟩
      · rw [← ha]; exact hwatch
      · rw [hae]; exact hin
      · rw [hae, ← ha]; exact htarget
      · rw [← ha]
        exact (congrArg (CaptureMode.suits · _) hmode).trans rfl
    have hopened := captureOffer_opened .bridge probeArg (a.entry i).line (a.entry i).node hmatch
    rw [← joinPoll_capture (by rw [han, hal]; exact hw), hb] at hopened
    rw [settleLine_capture (by rw [hopened]; exact fun h => nomatch h), hopened, han, hae, ← ha]
    rfl
  · have hline := hnew (by rw [hl]; rfl)
    have hb' : b.owedStop n = none := by
      refine owedStop_none_of howed (fun j hj => ?_) fun node hnode => ?_
      · have hje : b.entry j = a.entry j := by rw [← hb]; exact entry_congr (joinPoll_entries _ _) _
        rw [EndingOn, hje] at hj
        rw [hje, ← ha]
        exact reloaded_ending (by rw [ha]; exact hj)
      · rw [hline]
        exact hnode
    have hpolls : (b.line n).polls = [{ entry := i, mark := a.captureMark .probe i }] := by rw [hline, hl]; rfl
    have hgrant := settleLine_only_poll (b := b) (n := n) (by rw [hengine]; exact hidle) (by rw [hline]; exact hp)
      (by rw [hline]; exact hc) hpolls hb'
    refine ⟨a.captureMark .probe i, ?_⟩
    rw [hgrant, hline, hbe, hae, ← hl]
    rfl

end Sys2Proof.Probes
end

section
/-! The event flags as work raises them, and the completion of a capture (R114, R165 to R167, R181). -/

namespace Sys2Proof.Captures

open Sys2Proof Sys2Proof.Machine Sys2Proof.Machine.Safety Sys2Proof.Laws Sys2Proof.Walks Sys2Proof.DeviceLaws
  Sys2Proof.EntryOrder Sys2Proof.LineService

/-! ### Flags raised (R181) -/

theorem bit_injective {f g : EventFlag} (h : f.bit = g.bit) : f = g := by
  cases f <;> cases g <;> simp_all [EventFlag.bit]

theorem bit_lt (f : EventFlag) : f.bit < 14 := by cases f <;> decide

/-- Raising a flag sets it and no other. -/
theorem raise_flag (s : State) (f g : EventFlag) : (s.raise f).flag g = (s.flag g || decide (g = f)) := by
  by_cases hg : g = f
  · subst hg
    simp
  · have hmask : f.mask.getLsbD g.bit = false := by
      have hne : f.bit ≠ g.bit := fun h => hg (bit_injective h).symm
      have hlt := bit_lt g
      simp only [EventFlag.mask, BitVec.getLsbD_shiftLeft, BitVec.getLsbD_one]
      simp only [Bool.and_eq_false_iff, decide_eq_false_iff_not, Bool.not_eq_false', decide_eq_true_eq]
      omega
    rcases raise_flags s f with e | e
    · simp [State.flag, e, hg]
    · simp [State.flag, e, EventFlag.isIn, hmask, hg]

theorem raiseIf_flag (s : State) (f : Option EventFlag) (g : EventFlag) :
    (s.raiseIf f).flag g = (s.flag g || decide (f = some g)) := by
  cases f with
  | none => simp [State.raiseIf]
  | some f =>
    rw [State.raiseIf, raise_flag]
    simp [eq_comm]

theorem flag_congr {s t : State} (h : t.flags = s.flags) (f : EventFlag) : t.flag f = s.flag f := by
  rw [State.flag, h]
  rfl

/-- No flag goes. -/
def FlagsStay (s t : State) : Prop := ∀ f : EventFlag, s.flag f = true → t.flag f = true

theorem FlagsStay.refl (s : State) : FlagsStay s s := fun _ h => h

theorem FlagsStay.trans {s t u : State} (h : FlagsStay s t) (k : FlagsStay t u) : FlagsStay s u :=
  fun f hf => k f (h f hf)

theorem flagsStay_of_eq {s t : State} (h : t.flags = s.flags) : FlagsStay s t := fun f hf => by rw [flag_congr h, hf]

theorem flagsStay_raise (s : State) (f : EventFlag) : FlagsStay s (s.raise f) := raise_flag_mono s f

/-! ### The completion (R166) -/

variable {s : State} {record : CaptureRecord} {k : Nat} {i : EntryId} {a : CaptureAnswer}

theorem recorded_iff {c : Capture} {m : Option Nat} :
    c.recorded m = true ↔ ∃ record k, c.state = .opened record k ∧ m = some k := by
  unfold Capture.recorded
  split
  · next record k m hc =>
    rw [beq_iff_eq, hc]
    exact ⟨fun h => ⟨record, k, rfl, congrArg some h⟩,
      fun ⟨_, _, hstate, hm⟩ => by cases hstate; exact Option.some.inj hm⟩
  · next h =>
    refine ⟨fun hf => Bool.noConfusion hf, ?_⟩
    rintro ⟨record, k, hc, rfl⟩
    exact absurd rfl (h record k k hc)

theorem recorded_opened (h : s.capture.state = .opened record k) {m : Option Nat} :
    s.capture.recorded m = true ↔ m = some k := by
  rw [recorded_iff]
  refine ⟨fun ⟨_, _, hstate, hm⟩ => ?_, fun hm => ⟨record, k, h, hm⟩⟩
  rw [h] at hstate
  cases hstate
  exact hm

theorem recorded_idle {r : Option CaptureRecord} (h : s.capture.state = .idle r) (m : Option Nat) :
    s.capture.recorded m = false := by
  rw [← Bool.not_eq_true, recorded_iff, h]
  rintro ⟨record, k, hc, -⟩
  exact CaptureState.noConfusion hc

theorem captureEnd_other {m : Option Nat} (h : s.capture.recorded m = false) (i : EntryId) (a : CaptureAnswer) :
    s.captureEnd m i a = s := by
  rw [State.captureEnd, h, if_neg Bool.false_ne_true]

theorem captureHold_capture (s : State) (i : EntryId) : (s.captureHold i).capture = s.capture := by
  unfold State.captureHold
  split
  · rfl
  · rfl

theorem captureHold_held (s : State) (i : EntryId) : ((s.captureHold i).entry i).held = ((s.entry i).held ||
    decide (s.capture.action = .recordHold ∧ (s.entry i).inUse = true ∧ (s.entry i).cln = s.capture.target)) := by
  unfold State.captureHold
  split
  · next h =>
    have hd : s.capture.action = .recordHold ∧ (s.entry i).inUse = true ∧ (s.entry i).cln = s.capture.target := by
      simpa [and_assoc] using h
    rw [setEntry_entry_self, decide_eq_true hd, Bool.or_true]
  · next h =>
    have hd : ¬(s.capture.action = .recordHold ∧ (s.entry i).inUse = true ∧ (s.entry i).cln = s.capture.target) := by
      simpa [and_assoc] using h
    rw [decide_eq_false hd, Bool.or_false]

/-- The end of the recorded request completes the capture. -/
theorem captureEnd_completed (h : s.capture.state = .opened record k) (i : EntryId) (a : CaptureAnswer) :
    CaptureCompleted s (s.captureEnd (some k) i a) record i a := by
  have hrecorded : s.capture.recorded (some k) = true := (recorded_opened h).mpr rfl
  rw [State.captureEnd, if_pos hrecorded]
  refine ⟨?_, ?_, ?_⟩
  · rw [captureHold_capture, raise_capture, h]
    rfl
  · rw [flag_congr (captureHold_flags _ _), raise_flag_self]
  · rw [captureHold_held, raise_capture, raise_entry]
    rfl

theorem captureEnd_flag {f : EventFlag} (hf : f ≠ .captureHit) (s : State) (m : Option Nat) (i : EntryId)
    (a : CaptureAnswer) : (s.captureEnd m i a).flag f = s.flag f := by
  unfold State.captureEnd
  split
  · rw [flag_congr (captureHold_flags _ _), raise_flag, decide_eq_false hf, Bool.or_false]
    rfl
  · rfl

theorem flagsStay_captureEnd (s : State) (m : Option Nat) (i : EntryId) (a : CaptureAnswer) :
    FlagsStay s (s.captureEnd m i a) := by
  unfold State.captureEnd
  split
  · exact fun f hf => (flag_congr (captureHold_flags _ _) f).trans (raise_flag_mono _ _ _ hf)
  · exact .refl s

/-! ### Removals -/

theorem captureEndAll_cons (s : State) (r : Option Nat × EntryId) (l : List (Option Nat × EntryId))
    (a : CaptureAnswer) : s.captureEndAll (r :: l) a = (s.captureEnd r.1 r.2 a).captureEndAll l a := rfl

theorem captureEndAll_other {l : List (Option Nat × EntryId)} (h : ∀ r ∈ l, s.capture.recorded r.1 = false)
    (a : CaptureAnswer) : s.captureEndAll l a = s := by
  induction l with
  | nil => rfl
  | cons r l ih =>
    obtain ⟨hr, hl⟩ := List.forall_mem_cons.mp h
    rw [captureEndAll_cons, captureEnd_other hr, ih hl]

/-- A removal that holds the recorded request is its end. -/
theorem captureEndAll_recorded (h : s.capture.state = .opened record k) {l : List (Option Nat × EntryId)}
    (hl : ∃ r ∈ l, r.1 = some k) (a : CaptureAnswer) :
    ∃ r ∈ l, r.1 = some k ∧ s.captureEndAll l a = s.captureEnd (some k) r.2 a := by
  induction l with
  | nil =>
    obtain ⟨r, hr, -⟩ := hl
    cases hr
  | cons r l ih =>
    rw [captureEndAll_cons]
    by_cases hr : r.1 = some k
    · refine ⟨r, List.mem_cons_self .., hr, ?_⟩
      obtain ⟨hidle, -⟩ := captureEnd_completed h r.2 a
      rw [hr, captureEndAll_other fun q _ => recorded_idle hidle q.1]
    · have hother : s.captureEnd r.1 r.2 a = s :=
        captureEnd_other (by rw [← Bool.not_eq_true, recorded_opened h]; exact hr) r.2 a
      obtain ⟨q, hq, hmark⟩ := hl
      rcases List.mem_cons.mp hq with rfl | hq
      · exact absurd hmark hr
      · obtain ⟨p, hp, hpmark, heq⟩ := ih ⟨q, hq, hmark⟩
        exact ⟨p, List.mem_cons_of_mem _ hp, hpmark, by rw [hother, heq]⟩

theorem captureEndAll_flag {f : EventFlag} (hf : f ≠ .captureHit) (s : State) (l : List (Option Nat × EntryId))
    (a : CaptureAnswer) : (s.captureEndAll l a).flag f = s.flag f := by
  induction l generalizing s with
  | nil => rfl
  | cons r l ih => rw [captureEndAll_cons, ih, captureEnd_flag hf]

theorem flagsStay_captureEndAll (s : State) (l : List (Option Nat × EntryId)) (a : CaptureAnswer) :
    FlagsStay s (s.captureEndAll l a) := by
  unfold State.captureEndAll
  exact foldl_walk FlagsStay.refl FlagsStay.trans (fun t r => flagsStay_captureEnd t r.1 r.2 a) l s

/-! #### The two queues a verdict looks at -/

theorem withdrawPoll_line (s : State) (i : EntryId) : (s.withdrawPoll i).line (s.entry i).line =
    { s.line (s.entry i).line with
      polls := (s.line (s.entry i).line).polls.filter fun p => p.entry != i } := by
  unfold State.withdrawPoll
  dsimp only
  rw [line_congr (captureEndAll_lines _ _ _), setLine_line_self]

theorem removeControl_line (s : State) (n : LineId) (p : ControlRequest → Bool) (a : CaptureAnswer) :
    (s.removeControl n p a).line n = { s.line n with control := (s.line n).control.filter fun c => !p c } := by
  unfold State.removeControl
  dsimp only
  rw [line_congr (captureEndAll_lines _ _ _), setLine_line_self]

theorem mem_pollMarks {l : List PollRequest} {r : Option Nat × EntryId} :
    r ∈ pollMarks (l.filter fun p => p.entry == i) ↔ ∃ p ∈ l, p.entry = i ∧ r = (p.mark, i) := by
  simp only [pollMarks, List.mem_map, List.mem_filter, beq_iff_eq]
  constructor
  · rintro ⟨p, ⟨hp, hi⟩, rfl⟩
    exact ⟨p, hp, hi, by rw [hi]⟩
  · rintro ⟨p, hp, hi, rfl⟩
    exact ⟨p, ⟨hp, hi⟩, by rw [hi]⟩

theorem mem_controlMarks {l : List ControlRequest} {p : ControlRequest → Bool} {r : Option Nat × EntryId} :
    r ∈ controlMarks (l.filter p) ↔ ∃ c ∈ l, p c = true ∧ r = (c.mark, c.entry) := by
  simp only [controlMarks, List.mem_map, List.mem_filter]
  constructor
  · rintro ⟨c, ⟨hc, hp⟩, rfl⟩
    exact ⟨c, hc, hp, rfl⟩
  · rintro ⟨c, hc, hp, rfl⟩
    exact ⟨c, ⟨hc, hp⟩, rfl⟩

/-- A PROBE withdrawn that is not recorded changes its line only. -/
theorem withdrawPoll_other (h : ∀ p ∈ (s.line (s.entry i).line).polls, p.entry = i → s.capture.recorded p.mark = false) :
    s.withdrawPoll i = s.setLine (s.entry i).line { s.line (s.entry i).line with
      polls := (s.line (s.entry i).line).polls.filter fun p => p.entry != i } := by
  unfold State.withdrawPoll
  refine captureEndAll_other (fun r hr => ?_) _
  obtain ⟨p, hp, hi, rfl⟩ := mem_pollMarks.mp hr
  exact h p hp hi

/-- A recorded PROBE withdrawn completes the capture (R167). -/
theorem withdrawPoll_completed (h : s.capture.state = .opened record k)
    (hp : ∃ p ∈ (s.line (s.entry i).line).polls, p.entry = i ∧ p.mark = some k) :
    CaptureCompleted s (s.withdrawPoll i) record i .withdrawn := by
  obtain ⟨p, hp, hi, hmark⟩ := hp
  unfold State.withdrawPoll
  dsimp only
  generalize hb : s.setLine (s.entry i).line _ = b
  have hopened : b.capture.state = .opened record k := by rw [← hb]; exact h
  obtain ⟨r, hr, -, heq⟩ := captureEndAll_recorded hopened
    ⟨_, mem_pollMarks.mpr ⟨p, hp, hi, rfl⟩, hmark⟩ .withdrawn
  obtain ⟨q, -, -, rfl⟩ := mem_pollMarks.mp hr
  rw [heq, ← hb]
  exact captureEnd_completed (s := s.setLine (s.entry i).line _) h i .withdrawn

/-- Requests removed from a control queue that hold no recorded one change their line only. -/
theorem removeControl_other {n : LineId} {p : ControlRequest → Bool}
    (h : ∀ c ∈ (s.line n).control, p c = true → s.capture.recorded c.mark = false) (a : CaptureAnswer) :
    s.removeControl n p a =
      s.setLine n { s.line n with control := (s.line n).control.filter fun c => !p c } := by
  unfold State.removeControl
  refine captureEndAll_other (fun r hr => ?_) _
  obtain ⟨c, hc, hp, rfl⟩ := mem_controlMarks.mp hr
  exact h c hc hp

/-- A recorded request of an entry removed from a control queue completes the capture (R167). -/
theorem removeControl_completed {n : LineId} {p : ControlRequest → Bool} (h : s.capture.state = .opened record k)
    (hc : ∃ c ∈ (s.line n).control, p c = true ∧ c.mark = some k) (hi : ∀ c, p c = true → c.entry = i)
    (a : CaptureAnswer) : CaptureCompleted s (s.removeControl n p a) record i a := by
  obtain ⟨c, hc, hp, hmark⟩ := hc
  unfold State.removeControl
  dsimp only
  generalize hb : s.setLine n _ = b
  have hopened : b.capture.state = .opened record k := by rw [← hb]; exact h
  obtain ⟨r, hr, -, heq⟩ := captureEndAll_recorded hopened
    ⟨_, mem_controlMarks.mpr ⟨c, hc, hp, rfl⟩, hmark⟩ a
  obtain ⟨d, -, hd, rfl⟩ := mem_controlMarks.mp hr
  rw [heq, ← hb]
  dsimp only
  rw [hi d hd]
  exact captureEnd_completed (s := s.setLine n _) h i a

/-! ### A completion among other work -/

/-- Work that leaves the capture and the entry's hold before a completion. -/
theorem completed_before {s' t : State} (h : CaptureCompleted s' t record i a) (hc : s'.capture = s.capture)
    (hheld : (s'.entry i).held = (s.entry i).held) (hin : (s'.entry i).inUse = (s.entry i).inUse)
    (hcln : (s'.entry i).cln = (s.entry i).cln) : CaptureCompleted s t record i a := by
  obtain ⟨hstate, hflag, heldAfter⟩ := h
  exact ⟨hstate, hflag, by rw [heldAfter, hc, hheld, hin, hcln]⟩

/-- Work that leaves the capture and the entry's hold behind a completion. -/
theorem completed_after {t' t : State} (h : CaptureCompleted s t' record i a) (hc : t.capture = t'.capture)
    (hflags : FlagsStay t' t) (hheld : (t.entry i).held = (t'.entry i).held) : CaptureCompleted s t record i a := by
  obtain ⟨hstate, hflag, heldAfter⟩ := h
  exact ⟨by rw [hc, hstate], hflags _ hflag, by rw [hheld, heldAfter]⟩

end Sys2Proof.Captures
end

section
/-! A verdict recorded, and the remaining minutes that run out (R62, R63, R96, R100, R101, R112 to R115, R167). -/

namespace Sys2Proof.Verdicts

open Sys2Proof Sys2Proof.Machine Sys2Proof.Machine.Safety Sys2Proof.Laws Sys2Proof.Walks Sys2Proof.DeviceLaws
  Sys2Proof.EntryOrder Sys2Proof.SchedulingPass Sys2Proof.LineService Sys2Proof.Captures

/-! ### The state move of a verdict (R112, R115) -/

section Move

variable {s : State} {i : EntryId}

theorem verdictMove_lines (s : State) (i : EntryId) (k : Kind) (v : Verdict) (e : Nat) :
    (s.verdictMove i k v e).lines = s.lines := by
  unfold State.verdictMove
  split
  · rw [raise_lines]
    rfl
  · rfl

theorem verdictMove_capture (s : State) (i : EntryId) (k : Kind) (v : Verdict) (e : Nat) :
    (s.verdictMove i k v e).capture = s.capture := by
  unfold State.verdictMove
  split
  · rw [raise_capture]
    rfl
  · rfl

theorem verdictMove_flag (s : State) (i : EntryId) (k : Kind) (v : Verdict) (e : Nat) (f : EventFlag) :
    (s.verdictMove i k v e).flag f = (s.flag f || decide (f = .halted ∧ s.halts v = true)) := by
  unfold State.verdictMove
  split
  · next h =>
    rw [raise_flag, decide_eq_decide.mpr (and_iff_left h)]
    rfl
  · next h =>
    rw [decide_eq_false fun hf => h hf.2, Bool.or_false]
    rfl

theorem verdictMove_held (s : State) (i : EntryId) (k : Kind) (v : Verdict) (e : Nat) :
    ((s.verdictMove i k v e).entry i).held = (s.entry i).held := by
  rw [ReportsAndStops.verdictMove_entry]

theorem raiseIf_lines (s : State) (f : Option EventFlag) : (s.raiseIf f).lines = s.lines := by
  cases f with
  | none => rfl
  | some f => exact raise_lines s f

theorem raiseIf_capture (s : State) (f : Option EventFlag) : (s.raiseIf f).capture = s.capture := by
  cases f with
  | none => rfl
  | some f => exact raise_capture s f

/-! ### The verdict noted, and what it withdraws -/

variable (s i) in
theorem verdictNoted_lines (k : Kind) (v : Verdict) : (verdictNoted s i k v).lines = s.lines := raiseIf_lines _ _

variable (s i) in
theorem verdictNoted_capture (k : Kind) (v : Verdict) : (verdictNoted s i k v).capture = s.capture := raiseIf_capture _ _

theorem verdictNoted_own (s : State) (i : EntryId) (k : Kind) (v : Verdict) :
    (verdictNoted s i k v).entry i = verdictHistory s i k v := by
  rw [verdictNoted_entry, if_pos rfl]

/-- The verdict's line: its entry's PROBE and stops gone. -/
theorem verdictCleared_line (s : State) (i : EntryId) (k : Kind) (v : Verdict) :
    (verdictCleared s i k v).line (s.entry i).line = { s.line (s.entry i).line with
      polls := (s.line (s.entry i).line).polls.filter fun p => p.entry != i
      control := (s.line (s.entry i).line).control.filter fun c => !ControlRequest.isStopFor i c } := by
  have hn : ((verdictNoted s i k v).entry i).line = (s.entry i).line := by rw [verdictNoted_own]; rfl
  have hline : (verdictNoted s i k v).line (s.entry i).line = s.line (s.entry i).line :=
    line_congr (verdictNoted_lines s i k v) _
  have hwithdrawn := withdrawPoll_line (verdictNoted s i k v) i
  rw [hn, hline] at hwithdrawn
  rw [verdictCleared, removeControl_line, hwithdrawn]

theorem verdictCleared_flag {f : EventFlag} (hf : f ≠ .captureHit) (s : State) (i : EntryId) (k : Kind) (v : Verdict) :
    (verdictCleared s i k v).flag f = (s.flag f || decide (v.flag = some f)) := by
  unfold verdictCleared State.removeControl State.withdrawPoll
  dsimp only
  rw [captureEndAll_flag hf]
  refine (captureEndAll_flag hf _ _ _).trans ?_
  exact raiseIf_flag _ _ _

theorem verdictHistory_kept (s : State) (i : EntryId) (k : Kind) (v : Verdict) :
    (verdictHistory s i k v).held = (s.entry i).held ∧ (verdictHistory s i k v).inUse = (s.entry i).inUse ∧
      (verdictHistory s i k v).cln = (s.entry i).cln := ⟨rfl, rfl, rfl⟩

/-- A recorded PROBE or stop that a verdict withdraws completes the capture (R167). -/
theorem verdictCleared_completed {record : CaptureRecord} {m : Nat} (h : s.capture.state = .opened record m)
    (k : Kind) (v : Verdict) (hm : (∃ p ∈ (s.line (s.entry i).line).polls, p.entry = i ∧ p.mark = some m) ∨
      ∃ c ∈ (s.line (s.entry i).line).control, c.kind = .stopTest ∧ c.entry = i ∧ c.mark = some m) :
    CaptureCompleted s (verdictCleared s i k v) record i .withdrawn := by
  obtain ⟨hheld, hin, hcln⟩ := verdictHistory_kept s i k v
  have hn : ((verdictNoted s i k v).entry i).line = (s.entry i).line := by rw [verdictNoted_own]; rfl
  have hline : (verdictNoted s i k v).line (s.entry i).line = s.line (s.entry i).line :=
    line_congr (verdictNoted_lines s i k v) _
  have hopened : (verdictNoted s i k v).capture.state = .opened record m := by rw [verdictNoted_capture, h]
  have hownHeld := congrArg Entry.held (verdictNoted_own s i k v)
  have hownIn := congrArg Entry.inUse (verdictNoted_own s i k v)
  have hownCln := congrArg Entry.cln (verdictNoted_own s i k v)
  rw [hheld] at hownHeld
  rw [hin] at hownIn
  rw [hcln] at hownCln
  have hcapture := verdictNoted_capture s i k v
  unfold verdictCleared
  generalize verdictNoted s i k v = b at *
  by_cases hp : ∃ p ∈ (s.line (s.entry i).line).polls, p.entry = i ∧ p.mark = some m
  · have hdone : CaptureCompleted b (b.withdrawPoll i) record i .withdrawn :=
      withdrawPoll_completed hopened (by rw [hn, hline]; exact hp)
    have ⟨hidle, _⟩ := hdone
    rw [removeControl_other fun c _ _ => recorded_idle hidle c.mark]
    exact completed_before (completed_after hdone rfl (flagsStay_of_eq rfl) rfl) hcapture hownHeld hownIn hownCln
  · rw [withdrawPoll_other fun p hpmem hpi => ?_]
    · rw [hn, hline]
      have hc := hm.resolve_left hp
      generalize hd : b.setLine (s.entry i).line _ = d
      have hdopened : d.capture.state = .opened record m := by rw [← hd]; exact hopened
      have hdline : (d.line (s.entry i).line).control = (s.line (s.entry i).line).control := by
        rw [← hd, setLine_line_self]
      have hde : d.entry i = b.entry i := by rw [← hd]; rfl
      have hdc : d.capture = s.capture := by rw [← hd]; exact hcapture
      rw [← hde] at hownHeld hownIn hownCln
      refine completed_before (removeControl_completed hdopened ?_ ?_ .withdrawn) hdc hownHeld hownIn hownCln
      · obtain ⟨c, hc, hkind, hi, hmark⟩ := hc
        exact ⟨c, by rw [hdline]; exact hc, by simp [ControlRequest.isStopFor, hkind, hi], hmark⟩
      · intro c hc
        simp only [ControlRequest.isStopFor, Bool.and_eq_true, beq_iff_eq] at hc
        exact hc.2
    · rw [← Bool.not_eq_true, recorded_opened hopened]
      rw [hn, hline] at hpmem
      exact fun hmark => hp ⟨p, hpmem, hpi, hmark⟩

end Move

/-! ### A verdict recorded (R112) -/

theorem doneFor_iff {k : Kind} {v : Verdict} :
    ((v.doneFor k).1 = true ↔ (k = .function ∧ (v = .pass ∨ v = .short ∨ v = .lamp)) ∨
      (k = .duration ∧ (v = .pass ∨ v = .marginal))) ∧
    ((v.doneFor k).2 = true ↔ k = .duration ∧ (v = .pass ∨ v = .marginal ∨ v = .short ∨ v = .lamp)) := by
  cases k <;> cases v <;> simp [Verdict.doneFor]

theorem verdictFlag_iff {v : Verdict} {f : EventFlag} : v.flag = some f ↔
    (f = .verdictFail ∧ (v = .short ∨ v = .lamp ∨ v = .overrun)) ∨ (f = .verdictMarginal ∧ v = .marginal) ∨
      (f = .noContact ∧ v = .noContact) := by
  cases v <;> simp [Verdict.flag, eq_comm]

theorem recordVerdict_flag {s : State} {i : EntryId} {u : CurrentTest} (h : (s.entry i).state.test = some u)
    (v : Verdict) (e : Nat) {f : EventFlag} (hf : f ≠ .captureHit) : (s.recordVerdict i v e).flag f =
      (s.flag f || decide (v.flag = some f) || decide (f = .halted ∧ s.halts v = true)) := by
  have hhalts : (verdictCleared s i u.kind v).halts v = s.halts v := by
    unfold State.halts
    rw [(kept_verdictCleared s i u.kind v).policy]
  rw [recordVerdict_eq h, verdictMove_flag, verdictCleared_flag hf, hhalts]

/-- Settles O22: the five steps of R112 on the entry, its line, the flags and the capture. -/
theorem recordVerdict : Obligations.RecordVerdict := by
  intro s i u v e htest t doneF doneD recharge n
  have ht : t = (verdictCleared s i u.kind v).verdictMove i u.kind v e := recordVerdict_eq htest v e
  obtain ⟨hown, hothers⟩ := recordVerdict_entries htest v e
  have hline : t.line n = { s.line n with
      polls := (s.line n).polls.filter fun p => p.entry != i
      control := (s.line n).control.filter fun c => !ControlRequest.isStopFor i c } := by
    rw [ht, line_congr (verdictMove_lines _ _ _ _ _), verdictCleared_line]
  have hflag (f : EventFlag) (hf : f ≠ .captureHit) : t.flag f =
      (s.flag f || decide (v.flag = some f) || decide (f = .halted ∧ s.halts v = true)) :=
    recordVerdict_flag htest v e hf
  obtain ⟨held, hentry⟩ : ∃ held, t.entry i = { verdictHistory s i u.kind v with
      state := afterVerdict s i u.kind v e, held := held } := by
    rcases hown with h | ⟨-, h⟩
    · exact ⟨_, h⟩
    · exact ⟨true, h⟩
  obtain ⟨hF, hD⟩ := doneFor_iff (k := u.kind) (v := v)
  have hF' {b : Bool} (h : b = true ↔ doneF) (hn : ¬doneF) : b = false := by
    rw [← Bool.not_eq_true, h]; exact hn
  have hD' {b : Bool} (h : b = true ↔ doneD) (hn : ¬doneD) : b = false := by
    rw [← Bool.not_eq_true, h]; exact hn
  refine ⟨?_, ?_, ?_, ?_, ?_, fun m hm => ?_, fun f hf => ?_, fun record k hopened hm => ?_, fun hdone => ?_,
    fun hdone => ?_, fun hdone => ?_, fun hdone => ?_, fun hh => ?_, fun hh => ?_, ?_, ?_, fun j hj => ?_⟩
  · rw [hentry]; rfl
  · rw [hline]
  · rw [hline]; rfl
  · rw [hline]
  · rw [hline]
  · exact (onlyLine_recordVerdict s i v e).others m hm
  · rw [hflag f hf, Bool.or_assoc, ← Bool.decide_or]
    simp only [verdictFlag_iff, or_assoc]
  · rw [ht]
    exact completed_after (verdictCleared_completed hopened u.kind v hm) (verdictMove_capture _ _ _ _ _)
      (fun f hf => by rw [verdictMove_flag, hf, Bool.true_or]) (verdictMove_held _ _ _ _ _)
  · rw [hentry]
    simp [verdictHistory, Entry.recordDone, hF.mpr hdone]
  · rw [hentry]
    simp [verdictHistory, Entry.recordDone, hF' hF hdone]
  · rw [hentry]
    simp [verdictHistory, Entry.recordDone, hD.mpr hdone]
  · rw [hentry]
    simp [verdictHistory, Entry.recordDone, hD' hD hdone]
  · refine ⟨?_, ?_⟩
    · rw [hentry]
      exact if_pos hh
    · rw [hflag .halted (fun h => nomatch h), hh]
      simp
  · rw [hentry]
    exact if_neg (by rw [hh]; exact Bool.false_ne_true)
  · rw [hentry]; rfl
  · rw [hentry]; rfl
  · rcases hothers j hj with h | ⟨-, h⟩
    · exact ⟨_, h⟩
    · exact ⟨true, h⟩

/-! ### Remaining minutes at 0 (R100) -/

section Remaining

variable {s : State} {i : EntryId} {u : CurrentTest}

/-- ENDING for the entry, its PROBE withdrawn: up to a hold by the capture. -/
theorem toEnding_entries (s : State) (i : EntryId) (u : CurrentTest) :
    Holds (s.setEntryState i (.ending u)) (s.toEnding i u) :=
  holds_withdrawPoll _ i

theorem toEnding_entry (s : State) (i : EntryId) (u : CurrentTest) : ∃ held,
    (s.toEnding i u).entry i = { s.entry i with state := .ending u, held := held } := by
  have hheld := toEnding_entries s i u i
  rw [setEntryState_entry_self] at hheld
  rcases hheld with h | ⟨-, h⟩
  · exact ⟨_, h⟩
  · exact ⟨true, h⟩

theorem remainingOut_up (h : (s.line (s.entry i).line).engine ≠ .down) :
    s.remainingOut i u = s.toEnding i { u with remaining := 0 } := by
  unfold State.remainingOut
  exact if_neg (by rw [lineDown_false.mpr h]; exact Bool.false_ne_true)

theorem remainingOut_down (h : (s.line (s.entry i).line).engine = .down) : s.remainingOut i u =
    (s.setEntryState i (.testing { u with remaining := 0 })).recordVerdict i .overrun 0 := by
  unfold State.remainingOut
  exact if_pos (lineDown_iff.mpr h)

theorem remainingEnd_due (hu : (s.entry i).state = .testing u) (h : u.remaining ≤ 1) :
    s.remainingEnd i = (s.remainingOut i u).settleLine (s.entry i).line := by
  unfold State.remainingEnd
  rw [hu]
  exact if_pos h

/-- On a line that is up the entry is ENDING, its stop waiting, in flight or owed to a full queue (R101). -/
theorem remainingOut_ends (h : (s.line (s.entry i).line).engine ≠ .down) :
    let t := (s.remainingOut i u).settleLine (s.entry i).line
    (t.entry i).state = .ending { u with remaining := 0 } ∧ (t.entry i).lastVerdict = (s.entry i).lastVerdict ∧
      ((s.entry i).inUse = true → (t.line (s.entry i).line).stopStands (s.entry i).node = true ∨
        4 ≤ (t.line (s.entry i).line).control.length) := by
  rw [remainingOut_up h]
  obtain ⟨held, hentry⟩ := toEnding_entry s i { u with remaining := 0 }
  generalize s.toEnding i { u with remaining := 0 } = b at hentry
  intro t
  have ht : t.entry i = { s.entry i with state := .ending { u with remaining := 0 }, held := held } := by
    rw [← hentry]
    exact (startsOnly_settleLine b _).same i (by rw [hentry]; exact fun v h => nomatch h)
  refine ⟨by rw [ht], by rw [ht], fun hin => ?_⟩
  have hending : EndingOn t (s.entry i).line i := by
    rw [EndingOn, ht]
    exact ⟨hin, rfl, rfl⟩
  have hstop := settleLine_stops b (s.entry i).line hending
  have hnode : (t.entry i).node = (s.entry i).node := by rw [ht]
  rw [← hnode]
  exact hstop

/-- On a DOWN line the test is judged OVERRUN at once. -/
theorem remainingOut_overruns (h : (s.line (s.entry i).line).engine = .down) :
    let t := (s.remainingOut i u).settleLine (s.entry i).line
    (t.entry i).lastVerdict = some (.overrun, u.kind) ∧ (t.entry i).state = afterVerdict s i u.kind .overrun 0 ∧
      t.flag .verdictFail = true ∧ (s.policy[5] = true → t.flag .halted = true) := by
  rw [remainingOut_down h]
  obtain ⟨hlast, hstate⟩ := ReportsAndStops.recordVerdict_moved_given (s := s) (i := i)
    (st := .testing { u with remaining := 0 }) (u := { u with remaining := 0 }) rfl .overrun 0
  have hflag {f : EventFlag} (hf : f ≠ .captureHit) := recordVerdict_flag
    (s := s.setEntryState i (.testing { u with remaining := 0 })) (i := i) (u := { u with remaining := 0 })
    (by rw [setEntryState_entry_self]; rfl) .overrun 0 hf
  generalize (s.setEntryState i (.testing { u with remaining := 0 })).recordVerdict i .overrun 0 = b at *
  intro t
  have ht : t.entry i = b.entry i := (startsOnly_settleLine b _).same i fun v hv =>
    ReportsAndStops.afterVerdict_ne_pending s i u.kind .overrun 0 v (hstate.symm.trans hv)
  have hflags (f : EventFlag) : t.flag f = b.flag f := flag_congr (quiet_lineWork.settleLine b _).flags f
  refine ⟨by rw [ht, hlast], by rw [ht, hstate], ?_, fun hp => ?_⟩
  · rw [hflags, hflag (f := .verdictFail) (fun h => nomatch h)]
    simp [Verdict.flag]
  · rw [hflags, hflag (f := .halted) (fun h => nomatch h)]
    have hhalts : (s.setEntryState i (.testing { u with remaining := 0 })).halts .overrun = true := hp
    simp [hhalts]

theorem afterVerdict_halted {v : Verdict} {e : Nat} {k : Kind} (h : s.halts v = true) :
    afterVerdict s i k v e = .faulted := if_pos h

theorem afterVerdict_free {v : Verdict} {e : Nat} {k : Kind} (h : s.halts v = false) : afterVerdict s i k v e =
    let left := verdictRecharge ((s.group (s.entry i).group).rechargeHours * 60) (s.entry i).rated e k v
    if left = 0 then .ready else .recharging left := if_neg (by rw [h]; exact Bool.false_ne_true)

/-- Settles O19: the entry goes on to ENDING, or is judged on a DOWN line. -/
theorem remainingMinutesOut : Obligations.RemainingMinutesOut := by
  intro s i u hu hdue
  have hrun : exec (.remainingMinutesOut i) s = .next ((s.remainingOut i u).settleLine (s.entry i).line) := by
    rw [← remainingEnd_due hu hdue]
    rfl
  refine ⟨_, hrun, fun hup => remainingOut_ends hup, fun hdown => ?_⟩
  obtain ⟨hlast, hstate, hfail, hhalted⟩ := remainingOut_overruns (u := u) hdown
  have hhalts : s.halts .overrun = s.policy[5] := rfl
  refine ⟨hlast, hfail, fun hp => ⟨?_, hhalted hp⟩, fun hp hk => ?_, fun hp hk hr => ?_⟩
  · rw [hstate, afterVerdict_halted (hhalts.trans hp)]
  · rw [hstate, afterVerdict_free (hhalts.trans hp), hk]
    rfl
  · rw [hstate, afterVerdict_free (hhalts.trans hp), hk]
    exact if_neg (show ¬(s.group (s.entry i).group).rechargeHours * 60 = 0 by omega)

end Remaining

end Sys2Proof.Verdicts
end

section
/-! The end of an exchange: what its client, the Capture Unit and the Test Monitor make of it, and the step of the line
around it (R9, R91 to R95, R108, R134, R137, R138, R140, R162, R166). -/

namespace Sys2Proof.ExchangeEnds

open Sys2Proof Sys2Proof.Machine Sys2Proof.Machine.Safety Sys2Proof.Laws Sys2Proof.Walks Sys2Proof.DeviceLaws
  Sys2Proof.LineOrder Sys2Proof.EntryOrder Sys2Proof.SchedulingPass Sys2Proof.LineService Sys2Proof.Trunk
  Sys2Proof.Captures Sys2Proof.Verdicts Sys2Proof.ReportsAndStops

/-! ### The pass-through answer (R140, R162) -/

section Answer

variable {s : State} {n : LineId} {f : Frame}

theorem passAnswer_node (s : State) (r : PassRequest) (fields : List Byte) :
    s.passAnswer r .ok fields = nodeAnswerFrame s r fields := by
  simp [State.passAnswer, State.frameTo, nodeAnswerFrame, refusalFrame, lampAnswerBody, LampCode.code]
  exact ⟨rfl, rfl⟩

theorem passAnswer_outcome (s : State) (r : PassRequest) (code : LampCode) :
    s.passAnswer r code [] = outcomeFrame s code r := rfl

/-- With a place free and no answer in the backlog the answer goes at once. -/
theorem passAnswerOut_free (hb : (s.line n).backlog = []) (htx : s.tx.length < 16) :
    s.passAnswerOut n f = (s.pushTx f).setEngine n .gap := by
  unfold State.passAnswerOut
  rw [hb, txFull_false htx]
  rfl

/-- Otherwise it joins the backlog. -/
theorem passAnswerOut_held (h : (s.line n).backlog ≠ [] ∨ 16 ≤ s.tx.length) :
    s.passAnswerOut n f = (s.joinBacklog n f).setEngine n .holding := by
  unfold State.passAnswerOut
  refine if_neg fun hfree => ?_
  simp only [Bool.and_eq_true, List.isEmpty_iff, Bool.not_eq_true', ← Bool.not_eq_true, txFull_iff] at hfree
  obtain ⟨hb, htx⟩ := hfree
  exact h.elim (fun h => h hb) htx

/-- Where an answer goes (R140). -/
def AnswerPlaced (s t : State) (n : LineId) (answer : Frame) : Prop :=
  ((s.line n).backlog = [] → s.tx.length < 16 →
    t.tx = s.tx ++ [answer] ∧ (t.line n).engine = .gap ∧ (t.line n).backlog = []) ∧
  ((s.line n).backlog ≠ [] ∨ 16 ≤ s.tx.length → t.tx = s.tx ∧ (t.line n).engine = .holding ∧
    (t.line n).backlog = (s.line n).backlog ++ [answer])

theorem answerPlaced_passAnswerOut (s : State) (n : LineId) (f : Frame) : AnswerPlaced s (s.passAnswerOut n f) n f := by
  refine ⟨fun hb htx => ?_, fun h => ?_⟩
  · rw [passAnswerOut_free hb htx]
    refine ⟨rfl, ?_, ?_⟩
    · rw [setEngine_line_self]
    · rw [setEngine_line_self]
      exact hb
  · rw [passAnswerOut_held h]
    refine ⟨rfl, ?_, ?_⟩
    · rw [setEngine_line_self]
    · rw [setEngine_line_self, joinBacklog_line_self]

theorem passAnswerOut_engine (s : State) (n : LineId) (f : Frame) :
    ((s.passAnswerOut n f).line n).engine = .gap ∨ ((s.passAnswerOut n f).line n).engine = .holding := by
  unfold State.passAnswerOut
  split
  · exact .inl (by rw [setEngine_line_self])
  · exact .inr (by rw [setEngine_line_self])

end Answer

/-! ### The client's part -/

section Client

theorem touch_lines (s : State) (n : LineId) (r : PassRequest) (e : ExchangeEnd) : (s.touch n r e).lines = s.lines := by
  unfold State.touch
  split
  · split
    · split
      · rfl
      · rfl
    · rfl
  · rfl

theorem touch_rest (s : State) (n : LineId) (r : PassRequest) (e : ExchangeEnd) : (s.touch n r e).tx = s.tx ∧
    (s.touch n r e).capture = s.capture ∧ (s.touch n r e).flags = s.flags := by
  unfold State.touch
  split
  · split
    · split
      · exact ⟨rfl, rfl, rfl⟩
      · exact ⟨rfl, rfl, rfl⟩
    · exact ⟨rfl, rfl, rfl⟩
  · exact ⟨rfl, rfl, rfl⟩

/-- The same entry but for held and touched. -/
def Marked (e e' : Entry) : Prop := ∃ held touched, e' = { e with held := held, touched := touched }

theorem Marked.refl (e : Entry) : Marked e e := ⟨_, _, rfl⟩

theorem Marked.trans {e e' e'' : Entry} (h : Marked e e') (k : Marked e' e'') : Marked e e'' := by
  obtain ⟨a, b, rfl⟩ := h
  obtain ⟨c, d, rfl⟩ := k
  exact ⟨c, d, rfl⟩

theorem marked_of_heldAs {e e' : Entry} (h : HeldAs e e') : Marked e e' := by
  rcases h with rfl | ⟨-, rfl⟩
  · exact .refl _
  · exact ⟨true, _, rfl⟩

/-- A request that is not a change, or is answered otherwise, touches nothing (R9). -/
theorem touch_none {s : State} {n : LineId} {r : PassRequest} {e : ExchangeEnd}
    (h : ∀ f, e ≠ .answered (.change true) f) : s.touch n r e = s := by
  unfold State.touch
  split
  · next f => exact absurd rfl (h f)
  · rfl

theorem touch_entry (s : State) (n : LineId) (r : PassRequest) (e : ExchangeEnd) (i : EntryId) :
    ∃ touched, (s.touch n r e).entry i = { s.entry i with touched := touched } := by
  unfold State.touch
  split
  · split
    · next j _ =>
      split
      · rw [setEntry_entry]
        split
        · next h => subst h; exact ⟨_, rfl⟩
        · exact ⟨_, rfl⟩
      · exact ⟨_, rfl⟩
    · exact ⟨_, rfl⟩
  · exact ⟨_, rfl⟩

theorem passAnswerOut_rest (s : State) (n : LineId) (f : Frame) : (s.passAnswerOut n f).entries = s.entries ∧
    (s.passAnswerOut n f).capture = s.capture ∧ (s.passAnswerOut n f).flags = s.flags := by
  unfold State.passAnswerOut
  split
  · exact ⟨rfl, rfl, rfl⟩
  · exact ⟨rfl, rfl, rfl⟩

theorem clientEnd_pass {e : ExchangeEnd} (he : e ≠ .lineDown) (s : State) (n : LineId) (r : PassRequest) :
    s.clientEnd n (.passThrough r) e =
      (s.touch n r e).passAnswerOut n ((s.touch n r e).passAnswer r e.lampCode e.fields) := by
  cases e with
  | lineDown => exact absurd rfl he
  | _ => rfl

/-- The end of a bridge request is all there is, but that a stop cut short is put back. -/
theorem clientEnd_done {w : Work} {e : ExchangeEnd} (hw : ∀ r, w ≠ .passThrough r)
    (he : e ≠ .aborted ∧ e ≠ .lineDown) (s : State) (n : LineId) : s.clientEnd n w e = s := by
  cases w with
  | passThrough r => exact absurd rfl (hw r)
  | poll r => rfl
  | control r =>
    unfold State.clientEnd
    dsimp only
    split
    · exact absurd rfl he.1
    · exact absurd rfl he.2
    · rfl

end Client

/-! ### The hand-over of an end (R138) -/

section Hand

variable {s : State} {n : LineId} {x : Exchange} {e : ExchangeEnd} {i : EntryId}

/-- The Monitor's and the Capture Unit's part of an end, the engine already in GAP. -/
def noted (s : State) (n : LineId) (x : Exchange) (e : ExchangeEnd) : State :=
  ((s.setEngine n .gap).monitorEnd n x.node x.work.name x.work.isPoll e).captureEnd x.work.mark x.work.entry
    e.captureAnswer

theorem endExchange_eq (s : State) (n : LineId) (x : Exchange) (e : ExchangeEnd) :
    s.endExchange n x e = (noted s n x e).clientEnd n x.work e := rfl

/-- What is noted of an end leaves the line's engine, backlog and pass-through queue, and the transmit queue. -/
theorem noted_line (s : State) (n : LineId) (x : Exchange) (e : ExchangeEnd) :
    ((noted s n x e).line n).engine = .gap ∧ ((noted s n x e).line n).backlog = (s.line n).backlog ∧
      ((noted s n x e).line n).pass = (s.line n).pass ∧ (noted s n x e).tx = s.tx := by
  have hwork := (sideWork_testWork.monitorEnd (s.setEngine n .gap) n x.node x.work.name x.work.isPoll e).trans
    (sideWork_captureEnd _ x.work.mark x.work.entry e.captureAnswer)
  obtain ⟨hpass, hbacklog, hengine, -⟩ := hwork.kept n
  rw [setEngine_line_self] at hpass hbacklog hengine
  exact ⟨hengine, hbacklog, hpass, hwork.tx⟩

theorem noted_entry (s : State) (n : LineId) (x : Exchange) (e : ExchangeEnd) (i : EntryId) :
    HeldAs (((s.setEngine n .gap).monitorEnd n x.node x.work.name x.work.isPoll e).entry i)
      ((noted s n x e).entry i) := holds_captureEnd _ _ _ _ i

/-- The engine behind an end that is no line-supply fault. -/
theorem endExchange_engine (he : e ≠ .aborted ∧ e ≠ .lineDown) :
    ((s.endExchange n x e).line n).engine = .gap ∨ ((s.endExchange n x e).line n).engine = .holding := by
  obtain ⟨hengine, -⟩ := noted_line s n x e
  rw [endExchange_eq]
  cases hw : x.work with
  | passThrough r =>
    rw [clientEnd_pass he.2]
    exact passAnswerOut_engine _ _ _
  | control r =>
    rw [clientEnd_done (by rintro _ ⟨⟩) he]
    exact .inl hengine
  | poll r =>
    rw [clientEnd_done (by rintro _ ⟨⟩) he]
    exact .inl hengine

/-- The entries behind an end: as the Monitor left them, but for held and touched. -/
theorem endExchange_entry (he : e ≠ .aborted ∧ e ≠ .lineDown) (i : EntryId) :
    Marked (((s.setEngine n .gap).monitorEnd n x.node x.work.name x.work.isPoll e).entry i)
      ((s.endExchange n x e).entry i) := by
  refine (marked_of_heldAs (noted_entry s n x e i)).trans ?_
  rw [endExchange_eq]
  cases hw : x.work with
  | passThrough r =>
    rw [clientEnd_pass he.2]
    obtain ⟨hentries, -⟩ := passAnswerOut_rest ((noted s n x e).touch n r e) n
      (((noted s n x e).touch n r e).passAnswer r e.lampCode e.fields)
    rw [entry_congr hentries]
    obtain ⟨touched, h⟩ := touch_entry (noted s n x e) n r e i
    exact ⟨_, touched, h⟩
  | control r =>
    rw [clientEnd_done (by rintro _ ⟨⟩) he]
    exact .refl _
  | poll r =>
    rw [clientEnd_done (by rintro _ ⟨⟩) he]
    exact .refl _

theorem endExchange_flags (he : e ≠ .aborted ∧ e ≠ .lineDown) (s : State) (n : LineId) (x : Exchange) :
    (s.endExchange n x e).flags = (noted s n x e).flags ∧ (s.endExchange n x e).capture = (noted s n x e).capture := by
  rw [endExchange_eq]
  cases hw : x.work with
  | passThrough r =>
    rw [clientEnd_pass he.2]
    obtain ⟨-, hcapture, hflags⟩ := passAnswerOut_rest ((noted s n x e).touch n r e) n
      (((noted s n x e).touch n r e).passAnswer r e.lampCode e.fields)
    obtain ⟨-, hcapture', hflags'⟩ := touch_rest (noted s n x e) n r e
    exact ⟨hflags.trans hflags', hcapture.trans hcapture'⟩
  | control r =>
    rw [clientEnd_done (by rintro _ ⟨⟩) he]
    exact ⟨rfl, rfl⟩
  | poll r =>
    rw [clientEnd_done (by rintro _ ⟨⟩) he]
    exact ⟨rfl, rfl⟩

/-- The step behind an end: the line does not fall IDLE, so only stops are placed. -/
theorem endExchange_settled (he : e ≠ .aborted ∧ e ≠ .lineDown) (s : State) (n : LineId) (x : Exchange) :
    ((s.endExchange n x e).settleLine n).entries = (s.endExchange n x e).entries ∧
      (∃ stops : List ControlRequest, (∀ c ∈ stops, c.kind = .stopTest) ∧
        ((s.endExchange n x e).settleLine n).line n = { (s.endExchange n x e).line n with
          control := ((s.endExchange n x e).line n).control ++ stops }) ∧
      ((s.endExchange n x e).settleLine n).tx = (s.endExchange n x e).tx ∧
      ((s.endExchange n x e).settleLine n).flags = (s.endExchange n x e).flags := by
  have hbusy : ((s.endExchange n x e).line n).engine ≠ .idle := by
    rcases endExchange_engine (s := s) (n := n) (x := x) he with h | h
    · rw [h]; exact fun h => nomatch h
    · rw [h]; exact fun h => nomatch h
  have hquiet := quiet_lineWork.settleLine (s.endExchange n x e) n
  exact ⟨settleLine_busy_entries hbusy, settleLine_busy_line hbusy, hquiet.tx, hquiet.flags⟩

/-- What a step makes of an entry at an end: what the Monitor does, but for held and touched. -/
theorem ended_entry (he : e ≠ .aborted ∧ e ≠ .lineDown) (i : EntryId) :
    Marked (((s.setEngine n .gap).monitorEnd n x.node x.work.name x.work.isPoll e).entry i)
      (((s.endExchange n x e).settleLine n).entry i) := by
  obtain ⟨hentries, -⟩ := endExchange_settled he s n x
  rw [entry_congr hentries]
  exact endExchange_entry he i

/-- The flags a step raises at an end are the Monitor's, but for CAPTURE_HIT. -/
theorem ended_flag (he : e ≠ .aborted ∧ e ≠ .lineDown) {f : EventFlag} (hf : f ≠ .captureHit) :
    ((s.endExchange n x e).settleLine n).flag f =
      ((s.setEngine n .gap).monitorEnd n x.node x.work.name x.work.isPoll e).flag f := by
  obtain ⟨-, -, -, hflags⟩ := endExchange_settled he s n x
  obtain ⟨hflags', -⟩ := endExchange_flags he s n x
  rw [flag_congr (hflags.trans hflags')]
  exact captureEnd_flag hf _ _ _ _

/-- An end that is no change answered OK touches no entry. -/
theorem ended_untouched (he : e ≠ .aborted ∧ e ≠ .lineDown) (hchange : ∀ f, e ≠ .answered (.change true) f) :
    ((s.endExchange n x e).settleLine n).entries = (noted s n x e).entries := by
  obtain ⟨hentries, -⟩ := endExchange_settled he s n x
  rw [hentries, endExchange_eq]
  cases hw : x.work with
  | passThrough r =>
    rw [clientEnd_pass he.2, touch_none hchange]
    obtain ⟨h, -⟩ := passAnswerOut_rest (noted s n x e) n ((noted s n x e).passAnswer r e.lampCode e.fields)
    exact h
  | control r => rw [clientEnd_done (by rintro _ ⟨⟩) he]
  | poll r => rw [clientEnd_done (by rintro _ ⟨⟩) he]

end Hand

/-! ### The commands that end an attempt (R134, R137) -/

section Commands

variable {s : State} {n : LineId} {x : Exchange} {w : Nat} {f : List Byte}

theorem exec_taken {a : NodeAnswer} (hengine : (s.line n).engine = .awaiting x w) (hnode : x.node < 256)
    (hf : DecodesTo x.work.name f a) :
    exec (heardAnswer n x f) s = .next ((s.endExchange n x (.answered a f)).settleLine n) := by
  obtain ⟨hlength, hdecode⟩ := hf
  have hheard := checkAnswer_heard x.node x.number x.work.name f hnode hlength
  rw [hdecode] at hheard
  have hexec (heard : List Byte) : exec (.lineAnswerReceived n heard) s = .next (s.answerHeard n heard) := rfl
  rw [heardAnswer, hexec, State.answerHeard, hengine]
  dsimp only
  rw [hheard]

theorem exec_windowClose (hengine : (s.line n).engine = .awaiting x w) (cut : Bool) :
    exec (.replyWindowClose n cut) s = .next ((s.attemptEnd n x cut).settleLine n) := by
  have hexec : exec (.replyWindowClose n cut) s = .next (s.windowClose n cut) := rfl
  rw [hexec, State.windowClose, hengine]

theorem attemptEnd_again (h : x.made < x.allowed) (bad : Bool) : s.attemptEnd n x bad =
    s.setEngine n (.sending { x with made := x.made + 1, badSeen := x.badSeen || bad }) := if_pos h

theorem attemptEnd_last (h : x.allowed ≤ x.made) (bad : Bool) : s.attemptEnd n x bad =
    s.endExchange n { x with badSeen := x.badSeen || bad } (if x.badSeen || bad then .badAnswer else .noAnswer) :=
  if_neg (Nat.not_lt.mpr h)

theorem decodes_of_taken {node : Nat} {number : Byte} {name : ReqName} {heard fields : List Byte} {a : NodeAnswer}
    (h : checkAnswer node number name heard = .taken a fields) : decodeAnswer name fields = some a := by
  unfold checkAnswer at h
  dsimp only at h
  repeat' split at h
  all_goals cases h
  next hdecode => exact hdecode

/-- What a command can make of a line that awaits an answer: nothing, the end of the attempt, or an answer taken. -/
theorem exec_awaiting (hengine : (s.line n).engine = .awaiting x w) {c : Instr}
    (hc : (∃ cut, c = .replyWindowClose n cut) ∨ ∃ heard, c = .lineAnswerReceived n heard) :
    ∃ t, exec c s = .next t ∧ (t = s ∨ (∃ bad, t = (s.attemptEnd n x bad).settleLine n) ∨
      ∃ a f, decodeAnswer x.work.name f = some a ∧ t = (s.endExchange n x (.answered a f)).settleLine n) := by
  rcases hc with ⟨cut, rfl⟩ | ⟨heard, rfl⟩
  · exact ⟨_, exec_windowClose hengine cut, .inr (.inl ⟨cut, rfl⟩)⟩
  · have hexec : exec (.lineAnswerReceived n heard) s = .next (s.answerHeard n heard) := rfl
    refine ⟨_, hexec, ?_⟩
    rw [State.answerHeard, hengine]
    dsimp only
    split
    · exact .inl rfl
    · exact .inl rfl
    · exact .inr (.inl ⟨true, rfl⟩)
    · next a f h => exact .inr (.inr ⟨a, f, decodes_of_taken h, rfl⟩)

/-- Settling a line that sends again places stops only. -/
theorem attemptEnd_again_settled (h : x.made < x.allowed) (bad : Bool) :
    ((s.attemptEnd n x bad).settleLine n).entries = s.entries := by
  rw [attemptEnd_again h, settleLine_busy_entries]
  · rfl
  · rw [setEngine_line_self]
    exact fun h => nomatch h

end Commands

end Sys2Proof.ExchangeEnds
end

section
/-! Answers and outcomes by the state of the entry: starts taken and failed, polls missed, stops unanswered (R92 to R97,
R102, R103, R108). -/

namespace Sys2Proof.StartsAndPolls

open Sys2Proof Sys2Proof.Machine Sys2Proof.Machine.Safety Sys2Proof.Laws Sys2Proof.Walks Sys2Proof.DeviceLaws
  Sys2Proof.LineOrder Sys2Proof.EntryOrder Sys2Proof.SchedulingPass Sys2Proof.LineService Sys2Proof.Captures
  Sys2Proof.Verdicts Sys2Proof.ReportsAndStops Sys2Proof.ExchangeEnds

section Start

variable {s : State} {n : LineId} {x : Exchange} {i : EntryId} {u : CurrentTest} {e : ExchangeEnd} {name : ReqName}
  {poll : Bool} {node : Nat}

/-- The Monitor takes the end of a PENDING entry's own start (R92). -/
theorem monitorEnd_start (hplace : s.findPlace n node = some i) (hstate : (s.entry i).state = .pending u)
    (hname : name.isStart = true) (hsent : u.startSent = true) :
    s.monitorEnd n node name poll e = s.startEnd i u e := by
  simp [State.monitorEnd, hplace, hstate, State.endForPending, hname, hsent]

/-- No other end is taken for a PENDING entry (R92, R103). -/
theorem monitorEnd_pending_other (hplace : s.findPlace n node = some i) (hstate : (s.entry i).state = .pending u)
    (h : name.isStart = false ∨ u.startSent = false) : s.monitorEnd n node name poll e = s := by
  have hcond : (name.isStart && u.startSent) = false := Bool.and_eq_false_iff.mpr h
  simp [State.monitorEnd, hplace, hstate, State.endForPending, hcond]

theorem isStart_iff {name : ReqName} : name.isStart = true ↔ name = .startFunction ∨ name = .startDuration := by
  cases name <;> simp [ReqName.isStart]

theorem decodes_accepted {name : ReqName} (h : name = .startFunction ∨ name = .startDuration) :
    DecodesTo name [1, 1] (.start true) := by
  rcases h with rfl | rfl
  · exact ⟨rfl, rfl⟩
  · exact ⟨rfl, rfl⟩

theorem decodes_refused {name : ReqName} (h : name = .startFunction ∨ name = .startDuration) :
    DecodesTo name [1, 2] (.start false) := by
  rcases h with rfl | rfl
  · exact ⟨rfl, rfl⟩
  · exact ⟨rfl, rfl⟩

theorem remainingAtAccepted_eq (k : Kind) (rated grace : Nat) :
    remainingAtAccepted k rated grace = if k = .duration then min 255 (rated + grace) else 10 := by
  cases k <;> rfl

end Start

/-- Settles O23: the Monitor fills the test, and the rest of the end leaves it. -/
theorem acceptedStartTests : Obligations.AcceptedStartTests := by
  intro s n x w i u hengine hname hnode hplace hstate hsent left filled
  have hrun := exec_taken hengine hnode (decodes_accepted hname)
  have hends : ExchangeEnd.answered (.start true) [1, 1] ≠ .aborted ∧
      ExchangeEnd.answered (.start true) [1, 1] ≠ .lineDown := ⟨nofun, nofun⟩
  obtain ⟨hentries, ⟨stops, -, hline⟩, -, -⟩ := endExchange_settled hends s n x
  obtain ⟨held, touched, hentry⟩ := endExchange_entry (s := s) (n := n) (x := x) hends i
  obtain ⟨-, hn, -⟩ := findPlace_some hplace
  have hmonitor : (s.setEngine n .gap).monitorEnd n x.node x.work.name x.work.isPoll (.answered (.start true) [1, 1]) =
      (s.setEngine n .gap).acceptStart i u :=
    monitorEnd_start (s := s.setEngine n .gap) hplace hstate (isStart_iff.mpr hname) hsent
  have haccepted : ((s.setEngine n .gap).acceptStart i u).entry i =
      { s.entry i with state := if u.stopRequested then .ending filled else .testing filled, attempts := 0 } := by
    have hperiod : ((s.setEngine n .gap).line (s.entry i).line).settings.pollPeriod =
        (s.line n).settings.pollPeriod := by
      rw [hn, setEngine_line_self]
    unfold State.acceptStart
    rw [setEntry_entry_self]
    dsimp only
    rw [setEngine_entry, hperiod, remainingAtAccepted_eq]
    rfl
  rw [hmonitor, haccepted] at hentry
  refine ⟨_, hrun, ?_, ?_, ?_, ?_, ?_⟩
  · rw [entry_congr hentries, hentry]
  · rw [entry_congr hentries, hentry]
  · rw [entry_congr hentries, hentry]
  · rw [entry_congr hentries, hentry]
  · rw [hline]
    exact endExchange_engine hends

/-! ### A failed start (R94, R95) -/

section Failed

variable {s : State} {i : EntryId} {u : CurrentTest} {v : Verdict}

/-- Attempts raised up to the setting. -/
def raisedAttempts (s : State) (i : EntryId) : Nat := min ((s.entry i).attempts + 1) s.settings.maxAttempts

/-- Where a failed start leaves its entry. -/
def failedState (s : State) (i : EntryId) (v : Verdict) : EntryState :=
  if raisedAttempts s i = s.settings.maxAttempts ∧ s.halts v = true then .faulted
  else .backoff (retryDelay s.settings.backoffBase (raisedAttempts s i))

theorem raiseIf_settings (s : State) (f : Option EventFlag) :
    (s.raiseIf f).settings = s.settings ∧ (s.raiseIf f).policy = s.policy :=
  ⟨(kept_raiseIf s f).settings, (kept_raiseIf s f).policy⟩

theorem failStart_rules (s : State) (i : EntryId) (u : CurrentTest) (v : Verdict) :
    (s.failStart i u v).entry i = { s.entry i with
      attempts := raisedAttempts s i, lastVerdict := some (v, u.kind), state := failedState s i v } ∧
    ∀ f, (s.failStart i u v).flag f = (s.flag f || decide (v.flag = some f) ||
      decide (f = .halted ∧ raisedAttempts s i = s.settings.maxAttempts ∧ s.halts v = true)) := by
  unfold State.failStart
  dsimp only
  obtain ⟨b, hb⟩ : ∃ b : State, (s.setEntry i { s.entry i with
    attempts := min ((s.entry i).attempts + 1) s.settings.maxAttempts, lastVerdict := some (v, u.kind) }).raiseIf
      v.flag = b := ⟨_, rfl⟩
  obtain ⟨hsettings, hpolicy⟩ := raiseIf_settings (s.setEntry i { s.entry i with
    attempts := min ((s.entry i).attempts + 1) s.settings.maxAttempts, lastVerdict := some (v, u.kind) }) v.flag
  rw [hb] at hsettings hpolicy
  have hentry : b.entry i = { s.entry i with
      attempts := min ((s.entry i).attempts + 1) s.settings.maxAttempts, lastVerdict := some (v, u.kind) } := by
    rw [← hb, raiseIf_entry, setEntry_entry_self]
  have hflag (f : EventFlag) : b.flag f = (s.flag f || decide (v.flag = some f)) := by
    rw [← hb, raiseIf_flag]
    rfl
  have hhalts : b.halts v = s.halts v := by
    unfold State.halts
    rw [hpolicy]
    rfl
  have hbase : b.settings = s.settings := hsettings
  rw [hb, hhalts, hbase]
  unfold failedState raisedAttempts
  split
  · next h =>
    refine ⟨?_, fun f => ?_⟩
    · rw [raise_entry, setEntryState_entry_self, hentry]
    · rw [raise_flag, flag_congr (setEntryState_flags _ _ _), hflag, decide_eq_decide.mpr (and_iff_left h)]
  · next h =>
    refine ⟨?_, fun f => ?_⟩
    · rw [setEntryState_entry_self, hentry]
    · rw [flag_congr (setEntryState_flags _ _ _), hflag, decide_eq_false (p := f = .halted ∧ _ ∧ _) fun hf => h hf.2,
        Bool.or_false]

end Failed

/-! ### An end without an answer -/

section Unanswered

variable {s : State} {n : LineId} {x : Exchange} {i : EntryId} {u : CurrentTest} {e : ExchangeEnd} {name : ReqName}
  {poll : Bool} {node : Nat}

/-- An end without an answer. -/
def Unanswered (e : ExchangeEnd) : Prop := e = .noAnswer ∨ e = .badAnswer

theorem unanswered_ends (h : Unanswered e) : e ≠ .aborted ∧ e ≠ .lineDown := by
  rcases h with rfl | rfl
  · exact ⟨nofun, nofun⟩
  · exact ⟨nofun, nofun⟩

theorem startEnd_unanswered (h : Unanswered e) : s.startEnd i u e = s.failStart i u .noContact := by
  rcases h with rfl | rfl
  · rfl
  · rfl

/-- A poll without an answer is missed, a head-end PROBE is not counted (R97). -/
theorem monitorEnd_missed (hplace : s.findPlace n node = some i) (hstate : (s.entry i).state = .testing u)
    (h : Unanswered e) : s.monitorEnd n node .probe poll e = if poll then s.missPoll i u else s := by
  rcases h with rfl | rfl
  · simp [State.monitorEnd, hplace, hstate, State.endForTesting]
  · simp [State.monitorEnd, hplace, hstate, State.endForTesting]

theorem monitorEnd_ending_probe (hplace : s.findPlace n node = some i) (hstate : (s.entry i).state = .ending u)
    (h : Unanswered e) : s.monitorEnd n node .probe poll e = s := by
  rcases h with rfl | rfl
  · simp [State.monitorEnd, hplace, hstate, State.endForEnding]
  · simp [State.monitorEnd, hplace, hstate, State.endForEnding]

theorem monitorEnd_ending_stop (hplace : s.findPlace n node = some i) (hstate : (s.entry i).state = .ending u)
    (h : Unanswered e) : s.monitorEnd n node .stopTest poll e = s.recordVerdict i .noContact 0 := by
  rcases h with rfl | rfl
  · simp [State.monitorEnd, hplace, hstate, State.endForEnding]
  · simp [State.monitorEnd, hplace, hstate, State.endForEnding]

theorem monitorEnd_testing_stop (hplace : s.findPlace n node = some i) (hstate : (s.entry i).state = .testing u)
    (h : Unanswered e) : s.monitorEnd n node .stopTest poll e = s := by
  rcases h with rfl | rfl
  · simp [State.monitorEnd, hplace, hstate, State.endForTesting]
  · simp [State.monitorEnd, hplace, hstate, State.endForTesting]

end Unanswered

/-- A PROBE or stop exchange leaves a PENDING entry, but for a hold, and every entry where it is not recorded. -/
theorem pending_left {s : State} {n : LineId} {x : Exchange} {i : EntryId} {u : CurrentTest} {e : ExchangeEnd}
    (hplace : s.findPlace n x.node = some i) (hstate : (s.entry i).state = .pending u)
    (hname : x.work.name.isStart = false) (he : e ≠ .aborted ∧ e ≠ .lineDown)
    (hchange : ∀ f, e ≠ .answered (.change true) f) :
    HeldAs (s.entry i) (((s.endExchange n x e).settleLine n).entry i) ∧
      (s.capture.recorded x.work.mark = false → ((s.endExchange n x e).settleLine n).entries = s.entries) := by
  have hmonitor : (s.setEngine n .gap).monitorEnd n x.node x.work.name x.work.isPoll e = s.setEngine n .gap :=
    monitorEnd_pending_other (s := s.setEngine n .gap) hplace hstate (.inl hname)
  have hentries := ended_untouched (s := s) (n := n) (x := x) he hchange
  refine ⟨?_, fun hrecorded => ?_⟩
  · have hnoted := noted_entry s n x e i
    rw [hmonitor, setEngine_entry] at hnoted
    rw [entry_congr hentries]
    exact hnoted
  · rw [hentries, noted, hmonitor, captureEnd_other (s := s.setEngine n .gap) hrecorded]
    rfl

/-- No PROBE or STOP_TEST is answered as a change. -/
theorem answer_no_change {name : ReqName} {f : List Byte} {a : NodeAnswer} (hname : name = .probe ∨ name = .stopTest)
    (h : decodeAnswer name f = some a) : a ≠ .change true := by
  rintro rfl
  unfold decodeAnswer at h
  split at h
  · cases h
  · rcases hname with rfl | rfl
    · simp at h
    · dsimp only at h
      repeat' split at h
      all_goals cases h

theorem outcome_unanswered (b : Bool) : Unanswered (if b then .badAnswer else .noAnswer) := by
  cases b
  · exact .inl rfl
  · exact .inr rfl

/-- The end of the last attempt. -/
theorem exec_windowClose_last {s : State} {n : LineId} {x : Exchange} {w : Nat}
    (hengine : (s.line n).engine = .awaiting x w) (hlast : x.allowed ≤ x.made) (cut : Bool) :
    exec (.replyWindowClose n cut) s = .next ((s.endExchange n { x with badSeen := x.badSeen || cut }
      (if x.badSeen || cut then .badAnswer else .noAnswer)).settleLine n) := by
  rw [exec_windowClose hengine, attemptEnd_last hlast]

section Ends

variable {s : State} {n : LineId} {x : Exchange} {w : Nat} {i : EntryId} {u : CurrentTest} {e : ExchangeEnd}

/-- Whatever is heard or not, a PROBE or stop exchange does no more to a PENDING entry than the capture's hold. -/
theorem pending_kept (hengine : (s.line n).engine = .awaiting x w) (hplace : s.findPlace n x.node = some i)
    (hstate : (s.entry i).state = .pending u) (hname : x.work.name = .probe ∨ x.work.name = .stopTest) {c : Instr}
    (hc : (∃ cut, c = .replyWindowClose n cut) ∨ ∃ heard, c = .lineAnswerReceived n heard) :
    ∃ t, exec c s = .next t ∧ HeldAs (s.entry i) (t.entry i) ∧
      (s.capture.recorded x.work.mark = false → t.entries = s.entries) := by
  obtain ⟨t, ht, hcases⟩ := exec_awaiting hengine hc
  have hstart : x.work.name.isStart = false := by
    rcases hname with h | h
    · rw [h]; rfl
    · rw [h]; rfl
  refine ⟨t, ht, ?_⟩
  rcases hcases with rfl | ⟨bad, rfl⟩ | ⟨a, f, hdecode, rfl⟩
  · exact ⟨.inl rfl, fun _ => rfl⟩
  · by_cases hlast : x.made < x.allowed
    · have hentries := attemptEnd_again_settled (s := s) (n := n) hlast bad
      exact ⟨.inl (entry_congr hentries i), fun _ => hentries⟩
    · rw [attemptEnd_last (Nat.not_lt.mp hlast)]
      refine pending_left hplace hstate hstart (unanswered_ends (outcome_unanswered _)) fun f h => ?_
      rcases outcome_unanswered (x.badSeen || bad) with hout | hout
      · rw [hout] at h
        cases h
      · rw [hout] at h
        cases h
  · exact pending_left hplace hstate hstart ⟨nofun, nofun⟩ fun g h =>
      answer_no_change hname hdecode (ExchangeEnd.answered.inj h).1

/-- A failed start at the end of the step (R94, R95). -/
theorem start_failed {v : Verdict} (he : e ≠ .aborted ∧ e ≠ .lineDown)
    (hmonitor : (s.setEngine n .gap).monitorEnd n x.node x.work.name x.work.isPoll e =
      (s.setEngine n .gap).failStart i u v) {t : State} (ht : (s.endExchange n x e).settleLine n = t) :
    (∃ held touched, t.entry i = { s.entry i with
      attempts := raisedAttempts s i, lastVerdict := some (v, u.kind), state := failedState s i v, held := held,
      touched := touched }) ∧
    ∀ f, f ≠ .captureHit → t.flag f = (s.flag f || decide (v.flag = some f) ||
      decide (f = .halted ∧ raisedAttempts s i = s.settings.maxAttempts ∧ s.halts v = true)) := by
  obtain ⟨hentry, hflag⟩ := failStart_rules (s.setEngine n .gap) i u v
  obtain ⟨held, touched, hended⟩ := ended_entry (s := s) (n := n) (x := x) he i
  rw [hmonitor, hentry, ht] at hended
  refine ⟨⟨held, touched, hended⟩, fun f hf => ?_⟩
  rw [← ht, ended_flag he hf, hmonitor, hflag]
  rfl

/-- An end that the Monitor makes nothing of. -/
theorem ended_kept (he : e ≠ .aborted ∧ e ≠ .lineDown)
    (hmonitor : (s.setEngine n .gap).monitorEnd n x.node x.work.name x.work.isPoll e = s.setEngine n .gap)
    {t : State} (ht : (s.endExchange n x e).settleLine n = t) :
    (t.entry i).lastVerdict = (s.entry i).lastVerdict ∧ (t.entry i).state = (s.entry i).state := by
  obtain ⟨held, touched, hended⟩ := ended_entry (s := s) (n := n) (x := x) he i
  rw [hmonitor, ht, setEngine_entry] at hended
  rw [hended]
  exact ⟨rfl, rfl⟩

/-- The verdict NO_CONTACT at the end of the step. -/
theorem ended_noContact (he : e ≠ .aborted ∧ e ≠ .lineDown) {b : State}
    (hmonitor : (s.setEngine n .gap).monitorEnd n x.node x.work.name x.work.isPoll e = b)
    (hgiven : VerdictGiven s b i u.kind .noContact 0) (hflag : b.flag .noContact = true) {t : State}
    (ht : (s.endExchange n x e).settleLine n = t) : (t.entry i).lastVerdict = some (.noContact, u.kind) ∧
      t.flag .noContact = true ∧ (t.entry i).state = afterVerdict s i u.kind .noContact 0 := by
  obtain ⟨hlast, hstate⟩ := hgiven
  obtain ⟨held, touched, hended⟩ := ended_entry (s := s) (n := n) (x := x) he i
  rw [hmonitor, ht] at hended
  refine ⟨by rw [hended]; exact hlast, ?_, by rw [hended]; exact hstate⟩
  rw [← ht, ended_flag he (f := .noContact) (fun h => nomatch h), hmonitor, hflag]

theorem recordVerdict_noContact {b : State} (htest : (b.entry i).state.test = some u) :
    (b.recordVerdict i .noContact 0).flag .noContact = true := by
  rw [recordVerdict_flag htest _ _ (f := .noContact) (fun h => nomatch h)]
  simp [Verdict.flag]

theorem missPoll_counted (b : State) (h : u.missed < 2) :
    b.missPoll i u = b.setEntryState i (.testing { u with missed := u.missed + 1 }) := by
  unfold State.missPoll
  exact if_neg (by dsimp only; omega)

theorem missPoll_third (b : State) (h : 2 ≤ u.missed) : b.missPoll i u =
    (b.setEntryState i (.testing { u with missed := u.missed + 1 })).recordVerdict i .noContact 0 := by
  unfold State.missPoll
  exact if_pos (by dsimp only; omega)

end Ends

/-- Settles O27: the Monitor's row for each end, the rest of the step leaving it. -/
theorem unansweredStartFails : Obligations.UnansweredStartFails := by
  intro s n x w i u hengine hplace attempts failed noContact kept
  have hfailed {c : Instr} {v : Verdict} {halt : Bool} {x' : Exchange} {e : ExchangeEnd} (hhalt : s.halts v = halt)
      (hv : v.flag = if v = .noContact then some .noContact else none) (he : e ≠ .aborted ∧ e ≠ .lineDown)
      (hrun : exec c s = .next ((s.endExchange n x' e).settleLine n))
      (hmonitor : (s.setEngine n .gap).monitorEnd n x'.node x'.work.name x'.work.isPoll e =
        (s.setEngine n .gap).failStart i u v) : failed c v halt := by
    obtain ⟨t, ht⟩ : ∃ t, (s.endExchange n x' e).settleLine n = t := ⟨_, rfl⟩
    obtain ⟨⟨held, touched, hentry⟩, hflag⟩ := start_failed he hmonitor ht
    refine ⟨t, by rw [hrun, ht], ?_, ?_, ?_, ?_, ?_, ?_, ?_, fun hmax hh => ⟨?_, ?_⟩, fun h => ?_⟩
    · rw [hentry]; rfl
    · rw [hentry]
    · rw [hflag .noContact (fun h => nomatch h), hv]
      split
      · next h => simp [h]
      · next h => simp [h]
    · rw [hentry]
    · rw [hentry]
    · rw [hentry]
    · rw [hentry]
    · rw [hentry]
      exact if_pos ⟨hmax, hhalt.trans hh⟩
    · rw [hflag .halted (fun h => nomatch h), Bool.or_eq_true, decide_eq_true_eq]
      exact .inr ⟨rfl, hmax, hhalt.trans hh⟩
    · rw [hentry]
      refine if_neg fun ⟨hmax, hh⟩ => ?_
      rcases h with h | h
      · exact h hmax
      · rw [hhalt, h] at hh
        cases hh
  refine ⟨fun hname hstate c hc => ?_, fun hname hstate hsent => ⟨fun cut hlast => ?_, fun hnode => ?_⟩,
    fun cut hlast => ?_⟩
  · obtain ⟨t, ht, hheld, hentries⟩ := pending_kept hengine hplace hstate hname hc
    refine ⟨t, ht, ?_, fun hmark => hentries ?_⟩
    · rcases hheld with h | ⟨-, h⟩
      · rw [h]
      · rw [h]
    · rw [← Bool.not_eq_true, recorded_iff]
      rintro ⟨record, k, hopened, h⟩
      exact hmark record k hopened h
  · have hout := outcome_unanswered (x.badSeen || cut)
    refine hfailed (v := .noContact) rfl rfl (unanswered_ends hout) (exec_windowClose_last hengine hlast cut) ?_
    rw [monitorEnd_start (s := s.setEngine n .gap) hplace hstate (isStart_iff.mpr hname) hsent, startEnd_unanswered hout]
  · have he : ExchangeEnd.answered (.start false) [1, 2] ≠ .aborted ∧
        ExchangeEnd.answered (.start false) [1, 2] ≠ .lineDown := ⟨nofun, nofun⟩
    refine hfailed (v := .refused) rfl rfl he (exec_taken hengine hnode (decodes_refused hname)) ?_
    exact monitorEnd_start (s := s.setEngine n .gap) hplace hstate (isStart_iff.mpr hname) hsent
  · have hout := outcome_unanswered (x.badSeen || cut)
    have hrun := exec_windowClose_last hengine hlast cut
    generalize (if (x.badSeen || cut) = true then ExchangeEnd.badAnswer else .noAnswer) = e at hout hrun
    have he := unanswered_ends hout
    refine ⟨_, hrun, fun p hwork hstate => ⟨fun hmissed => ?_, fun hmissed => ?_⟩,
      fun r hwork hname hstate => ?_, fun hname hstate => ?_, fun hname hstate => ?_, fun hname hstate => ?_⟩
    · have hmonitor := monitorEnd_missed (s := s.setEngine n .gap) (poll := true) hplace hstate hout
      rw [if_pos rfl, missPoll_counted _ hmissed] at hmonitor
      have hprobe : x.work.name = .probe ∧ x.work.isPoll = true := by rw [hwork]; exact ⟨rfl, rfl⟩
      rw [← hprobe.1, ← hprobe.2] at hmonitor
      obtain ⟨held, touched, hended⟩ := ended_entry (s := s) (n := n)
        (x := { x with badSeen := x.badSeen || cut }) he i
      dsimp only at hended
      rw [hmonitor, setEntryState_entry_self, setEngine_entry] at hended
      exact ⟨by rw [hended], by rw [hended]⟩
    · have hmonitor := monitorEnd_missed (s := s.setEngine n .gap) (poll := true) hplace hstate hout
      rw [if_pos rfl, missPoll_third _ hmissed] at hmonitor
      refine ended_noContact he (x := { x with badSeen := x.badSeen || cut }) (by rw [hwork]; exact hmonitor) ?_
        (recordVerdict_noContact (by rw [setEntryState_entry_self]; rfl)) rfl
      exact recordVerdict_moved_given (s := s.setEngine n .gap) (u := { u with missed := u.missed + 1 }) rfl _ _
    · have hmonitor := monitorEnd_missed (s := s.setEngine n .gap) (poll := false) hplace hstate hout
      rw [if_neg Bool.false_ne_true] at hmonitor
      have hprobe : x.work.name = .probe ∧ x.work.isPoll = false := by rw [hwork]; exact ⟨hname, rfl⟩
      rw [← hprobe.1, ← hprobe.2] at hmonitor
      obtain ⟨hlastKept, hstateKept⟩ := ended_kept he (i := i) (x := { x with badSeen := x.badSeen || cut }) hmonitor rfl
      exact ⟨hlastKept, hstateKept.trans hstate⟩
    · have hmonitor := monitorEnd_ending_probe (s := s.setEngine n .gap) (poll := x.work.isPoll) hplace hstate hout
      rw [← hname] at hmonitor
      obtain ⟨hlastKept, hstateKept⟩ := ended_kept he (i := i) (x := { x with badSeen := x.badSeen || cut }) hmonitor rfl
      exact ⟨hlastKept, hstateKept.trans hstate⟩
    · have hmonitor := monitorEnd_ending_stop (s := s.setEngine n .gap) (poll := x.work.isPoll) hplace hstate hout
      rw [← hname] at hmonitor
      have htest : ((s.setEngine n .gap).entry i).state.test = some u := by rw [setEngine_entry, hstate]; rfl
      exact ended_noContact he (x := { x with badSeen := x.badSeen || cut }) hmonitor
        (recordVerdict_given (s := s.setEngine n .gap) htest _ _) (recordVerdict_noContact htest) rfl
    · have hmonitor := monitorEnd_testing_stop (s := s.setEngine n .gap) (poll := x.work.isPoll) hplace hstate hout
      rw [← hname] at hmonitor
      obtain ⟨hlastKept, hstateKept⟩ := ended_kept he (i := i) (x := { x with badSeen := x.badSeen || cut }) hmonitor rfl
      exact ⟨hlastKept, hstateKept.trans hstate⟩

end Sys2Proof.StartsAndPolls
end

section
/-! The answers a request admits, by their bytes, and the four checks of an answer heard (R133, R134, R188). -/

namespace Sys2Proof.AnswerForms

open Sys2Proof Sys2Proof.Machine Sys2Proof.Machine.Safety Sys2Proof.Laws Sys2Proof.ReportsAndStops
  Sys2Proof.StartsAndPolls

/-! ### Lists by their bytes -/

theorem byteAt_of_lt {f : List Byte} {k : Nat} (h : k < f.length) : byteAt f k = f[k] := by
  rw [byteAt, List.getD_eq_getElem?_getD, List.getElem?_eq_getElem h, Option.getD_some]

theorem bytes_eq (f : List Byte) : f = (List.range f.length).map (byteAt f) := by
  refine List.ext_getElem (by simp) fun k h _ => ?_
  rw [List.getElem_map, List.getElem_range, byteAt_of_lt h]

theorem bytes_of_length {f : List Byte} {n : Nat} (h : f.length = n) : f = (List.range n).map (byteAt f) := by
  rw [← h]
  exact bytes_eq f

theorem byteAt_eq {f : List Byte} {k n : Nat} (h : (byteAt f k).toNat = n) : byteAt f k = byteOf n := by
  rw [← h, byteOf, BitVec.ofNat_toNat]
  exact (BitVec.setWidth_eq _).symm

theorem natAt_two (f : List Byte) (k : Nat) (h : k + 1 < f.length) :
    natAt f k 2 = (byteAt f k).toNat * 256 + (byteAt f (k + 1)).toNat := by
  have htake : (f.drop k).take 2 = [byteAt f k, byteAt f (k + 1)] := by
    rw [List.drop_eq_getElem_cons (by omega), List.take_succ_cons, List.drop_eq_getElem_cons h, List.take_succ_cons,
      List.take_zero, byteAt_of_lt (by omega), byteAt_of_lt h]
  rw [natAt, htake]
  simp [beNat]

/-- Two bytes are the number they spell. -/
theorem beBytes_natAt (f : List Byte) (k : Nat) (h : k + 1 < f.length) :
    beBytes 2 (natAt f k 2) = [byteAt f k, byteAt f (k + 1)] := by
  rw [natAt_two f k h]
  have ha := (byteAt f k).isLt
  have hb := (byteAt f (k + 1)).isLt
  have hhigh : byteOf (((byteAt f k).toNat * 256 + (byteAt f (k + 1)).toNat) / 256 ^ 1) = byteAt f k := by
    refine BitVec.eq_of_toNat_eq ?_
    rw [byteOf, BitVec.toNat_ofNat]
    omega
  have hlow : byteOf (((byteAt f k).toNat * 256 + (byteAt f (k + 1)).toNat) / 256 ^ 0) = byteAt f (k + 1) := by
    refine BitVec.eq_of_toNat_eq ?_
    rw [byteOf, BitVec.toNat_ofNat]
    omega
  rw [beBytes, hhigh, beBytes, hlow, beBytes]

/-! ### The reports by their bytes -/

theorem boolByte_of_strict {b : Byte} {m : Bool} (h : strictYesNo b = some m) : boolByte m = b := by
  unfold strictYesNo at h
  split at h
  · next hb => cases h; exact hb.symm
  · split at h
    · next hb => cases h; exact hb.symm
    · cases h

/-- The code of a status on the line. -/
def statusByte : ReportStatus → Byte
  | .none => 0
  | .funcRunning => 1
  | .durRunning => 2
  | .funcDone => 3
  | .durDone => 4

/-- The code of a result on the line, 0 for none. -/
def resultByte : Option ReportResult → Byte
  | none => 0
  | some .pass => 1
  | some .lampFault => 2
  | some .batteryFault => 3

theorem statusByte_eq {f : List Byte} {k : Nat} {st : ReportStatus}
    (h : ReportStatus.ofCode (byteAt f k).toNat = some st) : byteAt f k = statusByte st := by
  unfold ReportStatus.ofCode at h
  split at h
  all_goals cases h
  all_goals exact byteAt_eq (by assumption)

theorem resultByte_eq {f : List Byte} {k : Nat} {res : Option ReportResult}
    (h : ReportResult.ofCode (byteAt f k).toNat = some res) : byteAt f k = resultByte res := by
  unfold ReportResult.ofCode at h
  split at h
  all_goals cases h
  all_goals exact byteAt_eq (by assumption)

theorem resultByte_some (r : ReportResult) :
    resultByte (some r) = 1 ∨ resultByte (some r) = 2 ∨ resultByte (some r) = 3 := by
  cases r <;> decide

/-- A report read from seven bytes is those bytes. -/
theorem decodeReport_bytes {f : List Byte} {r : TestReport} (hform : (byteAt f 0).toNat = 3) (hlen : f.length = 7)
    (h : decodeReport f = some r) :
    f = reportFields (statusByte r.status) (resultByte r.result) (byteAt f 3) r.v r.mains ∧ r.e = (byteAt f 3).toNat ∧
      r.v ≤ 4095 ∧ (r.status = .none → r.e = 0) ∧ (r.status ≠ .durDone → r.v = 0) ∧
      (r.status.isDone = true ↔ r.result.isSome = true) := by
  unfold decodeReport at h
  split at h
  · next st res mains hst hres hmains =>
    dsimp only at h
    split at h
    · next hrange =>
      obtain ⟨hv, he, hv0, hdone⟩ := hrange
      cases h
      refine ⟨?_, rfl, hv, he, hv0, hdone⟩
      calc f = (List.range 7).map (byteAt f) := bytes_of_length hlen
        _ = [byteAt f 0, byteAt f 1, byteAt f 2, byteAt f 3] ++ [byteAt f 4, byteAt f 5] ++ [byteAt f 6] := rfl
        _ = _ := by
          rw [← beBytes_natAt f 4 (by omega), byteAt_eq hform, statusByte_eq hst, resultByte_eq hres,
            ← boolByte_of_strict hmains]
          rfl
    · cases h
  · cases h

/-- The report forms admitted are those that decode. -/
theorem admitted_report {f : List Byte} {r : TestReport} (hform : (byteAt f 0).toNat = 3) (hlen : f.length = 7)
    (h : decodeReport f = some r) : AdmittedFields .probe f := by
  obtain ⟨hf, he, hv, he0, hv0, hdone⟩ := decodeReport_bytes hform hlen h
  have hzero (hst : r.status = .none) : byteAt f 3 = 0 := by
    have h0 : (byteAt f 3).toNat = 0 := by rw [← he]; exact he0 hst
    exact byteAt_eq h0
  refine ⟨byteAt f 3, r.mains, ?_⟩
  cases hst : r.status with
  | none =>
    have hres : r.result = none := by
      rw [hst] at hdone
      exact Option.not_isSome_iff_eq_none.mp fun h => Bool.noConfusion (hdone.mpr h)
    rw [hst, hres, hv0 (by rw [hst]; exact fun h => nomatch h), hzero hst] at hf
    exact .inl hf
  | funcRunning =>
    have hres : r.result = none := by
      rw [hst] at hdone
      exact Option.not_isSome_iff_eq_none.mp fun h => Bool.noConfusion (hdone.mpr h)
    rw [hst, hres, hv0 (by rw [hst]; exact fun h => nomatch h)] at hf
    exact .inr (.inl hf)
  | durRunning =>
    have hres : r.result = none := by
      rw [hst] at hdone
      exact Option.not_isSome_iff_eq_none.mp fun h => Bool.noConfusion (hdone.mpr h)
    rw [hst, hres, hv0 (by rw [hst]; exact fun h => nomatch h)] at hf
    exact .inr (.inr (.inl hf))
  | funcDone =>
    obtain ⟨res, hres⟩ := Option.isSome_iff_exists.mp (hdone.mp (by rw [hst]; rfl))
    rw [hst, hres, hv0 (by rw [hst]; exact fun h => nomatch h)] at hf
    exact .inr (.inr (.inr ⟨_, resultByte_some res, .inl hf⟩))
  | durDone =>
    obtain ⟨res, hres⟩ := Option.isSome_iff_exists.mp (hdone.mp (by rw [hst]; rfl))
    rw [hst, hres] at hf
    exact .inr (.inr (.inr ⟨_, resultByte_some res, .inr ⟨_, hv, hf⟩⟩))

/-! ### Admitted fields decode, and only they -/

theorem decodes_of_admitted {name : ReqName} {f : List Byte} (h : AdmittedFields name f) :
    ∃ a, DecodesTo name f a ∧ (a = .change true ↔ f = [6, 1]) := by
  cases name with
  | startFunction =>
    rcases h with rfl | rfl
    · exact ⟨_, decodes_accepted (.inl rfl), by simp⟩
    · exact ⟨_, decodes_refused (.inl rfl), by simp⟩
  | startDuration =>
    rcases h with rfl | rfl
    · exact ⟨_, decodes_accepted (.inr rfl), by simp⟩
    · exact ⟨_, decodes_refused (.inr rfl), by simp⟩
  | stopTest =>
    rcases h with ⟨e, rfl⟩ | rfl
    · exact ⟨_, decodes_stopped e, by simp⟩
    · exact ⟨_, decodes_noTest, by simp⟩
  | probe =>
    obtain ⟨e, m, h⟩ := h
    rcases h with rfl | rfl | rfl | ⟨res, hres, rfl | ⟨v, hv, rfl⟩⟩
    · have hnone := decodes_report (status := 0) (result := 0) (e := 0) (v := 0) (st := .none) (res := none) m rfl rfl
        (by decide) (fun _ => rfl) (fun _ => rfl) (by decide)
      exact ⟨_, hnone, by simp [reportFields]⟩
    · exact ⟨_, decodes_running .function e m, by simp [reportFields]⟩
    · exact ⟨_, decodes_running .duration e m, by simp [reportFields]⟩
    · obtain ⟨r, hcode, -, -⟩ := resultCode_spec hres
      exact ⟨_, decodes_funcDone e m hcode, by simp [reportFields]⟩
    · obtain ⟨r, hcode, -, -⟩ := resultCode_spec hres
      exact ⟨_, decodes_durDone e m hcode hv, by simp [reportFields]⟩
  | readParam =>
    rcases h with ⟨p, a, b, rfl⟩ | ⟨p, rfl⟩
    · exact ⟨.param true, ⟨rfl, rfl⟩, by simp⟩
    · have hzero : natAt [4#8, 2#8, p, 0#8, 0#8] 3 2 = 0 := rfl
      exact ⟨.param false, ⟨rfl, by simp [decodeAnswer, ReqName.form, byteAt, hzero]⟩, by simp⟩
  | identify =>
    obtain ⟨a, b, c, d, e, g, rfl⟩ := h
    exact ⟨.identity, ⟨rfl, rfl⟩, by simp⟩
  | setParam =>
    rcases h with rfl | rfl
    · exact ⟨.change true, ⟨rfl, rfl⟩, by simp⟩
    · exact ⟨.change false, ⟨rfl, rfl⟩, by simp⟩
  | setRest =>
    rcases h with rfl | rfl
    · exact ⟨.change true, ⟨rfl, rfl⟩, by simp⟩
    · exact ⟨.change false, ⟨rfl, rfl⟩, by simp⟩

/-- Two bytes whose second is a code 1 or 2. -/
theorem two_codes {f : List Byte} {form : Nat} {x y a : NodeAnswer}
    (h : (match (byteAt f 1).toNat with
      | 1 => some x
      | 2 => some y
      | _ => none) = some a) (hf : f = [byteAt f 0, byteAt f 1]) (hform : byteAt f 0 = byteOf form) :
    f = [byteOf form, 1] ∨ f = [byteOf form, 2] := by
  rw [hform] at hf
  split at h
  · next hcode => exact .inl (hf.trans (by rw [byteAt_eq hcode]; rfl))
  · next hcode => exact .inr (hf.trans (by rw [byteAt_eq hcode]; rfl))
  · cases h

/-- An answer of a form's length that decodes has admitted fields. -/
theorem admitted_of_decodes {name : ReqName} {f : List Byte} {a : NodeAnswer}
    (hlength : answerLength (byteAt f 0).toNat = some (f.length + 3)) (h : decodeAnswer name f = some a) :
    AdmittedFields name f := by
  have hform : (byteAt f 0).toNat = name.form := by
    unfold decodeAnswer at h
    split at h
    · cases h
    · next hform => exact Classical.not_not.mp hform
  unfold decodeAnswer at h
  rw [if_neg (Classical.not_not.mpr hform)] at h
  rw [hform] at hlength
  have hbyte := byteAt_eq hform
  have hlen {n : Nat} (h : answerLength name.form = some (n + 3)) : f = (List.range n).map (byteAt f) := by
    rw [h, Option.some.injEq] at hlength
    exact bytes_of_length (by omega)
  cases name with
  | startFunction =>
    have hf : f = [byteAt f 0, byteAt f 1] := hlen (n := 2) rfl
    exact two_codes h hf hbyte
  | startDuration =>
    have hf : f = [byteAt f 0, byteAt f 1] := hlen (n := 2) rfl
    exact two_codes h hf hbyte
  | stopTest =>
    have hf : f = [byteAt f 0, byteAt f 1, byteAt f 2] := hlen (n := 3) rfl
    rw [hbyte] at hf
    dsimp only at h
    split at h
    · next hcode =>
      rw [byteAt_eq hcode] at hf
      exact .inl ⟨_, hf⟩
    · next hcode =>
      split at h
      · next hzero =>
        rw [byteAt_eq hcode, hzero] at hf
        exact .inr hf
      · cases h
    · cases h
  | probe =>
    obtain ⟨r, hr, -⟩ := Option.map_eq_some_iff.mp h
    exact admitted_report hform (Nat.add_right_cancel (Option.some.inj hlength).symm) hr
  | readParam =>
    have hf : f = [byteAt f 0, byteAt f 1, byteAt f 2, byteAt f 3, byteAt f 4] := hlen (n := 5) rfl
    rw [hbyte] at hf
    dsimp only at h
    split at h
    · next hcode =>
      rw [byteAt_eq hcode] at hf
      exact .inl ⟨_, _, _, hf⟩
    · next hcode =>
      split at h
      · next hzero =>
        have hlength5 : f.length = 5 := by rw [hf]; rfl
        have hsum : (byteAt f 3).toNat * 256 + (byteAt f 4).toNat = 0 := (natAt_two f 3 (by omega)).symm.trans hzero
        rw [byteAt_eq hcode, byteAt_eq (f := f) (k := 3) (n := 0) (by omega),
          byteAt_eq (f := f) (k := 4) (n := 0) (by omega)] at hf
        exact .inr ⟨_, hf⟩
      · cases h
    · cases h
  | identify =>
    have hf : f = [byteAt f 0, byteAt f 1, byteAt f 2, byteAt f 3, byteAt f 4, byteAt f 5, byteAt f 6, byteAt f 7] :=
      hlen (n := 8) rfl
    dsimp only at h
    split at h
    · next hcode =>
      rw [hbyte, hcode] at hf
      exact ⟨_, _, _, _, _, _, hf⟩
    · cases h
  | setParam =>
    have hf : f = [byteAt f 0, byteAt f 1] := hlen (n := 2) rfl
    exact two_codes h hf hbyte
  | setRest =>
    have hf : f = [byteAt f 0, byteAt f 1] := hlen (n := 2) rfl
    exact two_codes h hf hbyte

/-! ### The four checks (R134) -/

section Checks

variable {node : Nat} {number k : Byte} {name : ReqName} {b : List Byte}

/-- An answer closed at the length of its form, by its check byte, its node, its number and its fields. -/
theorem checkAnswer_closed (hlength : answerLength (byteAt b 2).toNat = some (b.length + 1)) (h4 : 4 ≤ b.length) :
    checkAnswer node number name (b ++ [k]) =
      if k ≠ crc8 b then .bad
      else if (byteAt b 0).toNat ≠ node then .stray
      else if byteAt b 1 ≠ number then .stray
      else match decodeAnswer name (b.drop 2) with
        | some a => .taken a (b.drop 2)
        | none => .bad := by
  have hbyte {off : Nat} (h : off < b.length) : byteAt (b ++ [k]) off = byteAt b off := by
    rw [byteAt_of_lt h, byteAt_of_lt (by rw [List.length_append]; omega), List.getElem_append_left h]
  have hclose : closeAnswer (b ++ [k]) = b ++ [k] := by
    unfold closeAnswer
    rw [hbyte (by omega), hlength]
    exact List.take_of_length_le (by simp)
  have hcomplete : answerIncomplete (b ++ [k]) = false := by
    unfold answerIncomplete
    rw [hbyte (by omega), hlength]
    simp
  have hbody : (b ++ [k]).take ((b ++ [k]).length - 1) = b := by simp
  have hcheck : byteAt (b ++ [k]) ((b ++ [k]).length - 1) = k := by simp [byteAt]
  unfold checkAnswer
  dsimp only
  rw [hclose, hcomplete, hbody, hcheck, hbyte (by omega), hbyte (by omega), if_neg Bool.false_ne_true,
    if_neg (by simp; omega)] <;> rfl

theorem checkAnswer_stray (hlength : answerLength (byteAt b 2).toNat = some (b.length + 1)) (h4 : 4 ≤ b.length)
    (h : (byteAt b 0).toNat ≠ node ∨ byteAt b 1 ≠ number) :
    checkAnswer node number name (b ++ [crc8 b]) = .stray := by
  rw [checkAnswer_closed hlength h4, if_neg (Classical.not_not.mpr rfl)]
  by_cases hnode : (byteAt b 0).toNat ≠ node
  · rw [if_pos hnode]
  · rw [if_neg hnode, if_pos (h.resolve_left hnode)]

theorem checkAnswer_bad (hlength : answerLength (byteAt b 2).toNat = some (b.length + 1)) (h4 : 4 ≤ b.length)
    (h : k ≠ crc8 b) : checkAnswer node number name (b ++ [k]) = .bad := by
  rw [checkAnswer_closed hlength h4, if_pos h]

/-- Fields the request may not carry are bad. -/
theorem checkAnswer_notAdmitted {f : List Byte} (hnode : node < 256)
    (hlength : answerLength (byteAt f 0).toNat = some (f.length + 3)) (h : ¬AdmittedFields name f) :
    checkAnswer node number name (byteOf node :: number :: f ++ [crc8 (byteOf node :: number :: f)]) = .bad := by
  have hnone : decodeAnswer name f = none := by
    rw [Option.eq_none_iff_forall_not_mem]
    exact fun a ha => h (admitted_of_decodes hlength ha)
  rw [checkAnswer_heard node number name f hnode hlength, hnone]

end Checks

end Sys2Proof.AnswerForms
end

section
/-! What the Monitor's work on one entry leaves of holds, touched marks and a capture whose request waits nowhere
(R9, R138, R166). -/

namespace Sys2Proof.OwnEntry

open Sys2Proof Sys2Proof.Machine Sys2Proof.Machine.Safety Sys2Proof.Laws Sys2Proof.Walks Sys2Proof.DeviceLaws
  Sys2Proof.LineOrder Sys2Proof.EntryOrder Sys2Proof.SchedulingPass Sys2Proof.LineService Sys2Proof.Captures
  Sys2Proof.Verdicts Sys2Proof.ReportsAndStops Sys2Proof.ExchangeEnds

/-! ### The work at one entry -/

/-- A rewrite of an entry that leaves its identity, its hold and its touched mark. -/
def Rewrites (e e' : Entry) : Prop := SameIdentity e e' ∧ e'.held = e.held ∧ e'.touched = e.touched

theorem rewrites_state (e : Entry) (st : EntryState) : Rewrites e { e with state := st } :=
  ⟨sameIdentity_refl e, rfl, rfl⟩

/-- What a relation must hold of to hold of the Monitor's work at entry `i`. -/
structure OwnWork (i : EntryId) (R : State → State → Prop) : Prop where
  refl         : ∀ s, R s s
  trans        : ∀ {s t u}, R s t → R t u → R s u
  setEntry     : ∀ s e, Rewrites (s.entry i) e → R s (s.setEntry i e)
  raise        : ∀ s f, R s (s.raise f)
  joinPoll     : ∀ s, R s (s.joinPoll i)
  withdrawPoll : ∀ s, R s (s.withdrawPoll i)
  removeStops  : ∀ s n, n = (s.entry i).line → R s (s.removeControl n (ControlRequest.isStopFor i) .withdrawn)

namespace OwnWork

variable {i : EntryId} {R : State → State → Prop}

theorem setEntryState (w : OwnWork i R) (s : State) (st : EntryState) : R s (s.setEntryState i st) :=
  w.setEntry s _ (rewrites_state _ st)

theorem raiseIf (w : OwnWork i R) (s : State) (f : Option EventFlag) : R s (s.raiseIf f) := by
  cases f with
  | none => exact w.refl s
  | some f => exact w.raise s f

theorem verdictMove (w : OwnWork i R) (s : State) (k : Kind) (v : Verdict) (e : Nat) : R s (s.verdictMove i k v e) := by
  unfold State.verdictMove
  split
  · exact w.trans (w.setEntryState s _) (w.raise _ _)
  · exact w.setEntryState s _

theorem recordVerdict (w : OwnWork i R) (s : State) (v : Verdict) (e : Nat) : R s (s.recordVerdict i v e) := by
  cases h : (s.entry i).state.test with
  | none =>
    rw [State.recordVerdict, h]
    exact w.refl s
  | some u =>
    rw [recordVerdict_eq h]
    have hnoted : R s (verdictNoted s i u.kind v) :=
      w.trans (w.setEntry s (verdictHistory s i u.kind v) ⟨sameIdentity_refl _, rfl, rfl⟩) (w.raiseIf _ _)
    have hline : (s.entry i).line = (((verdictNoted s i u.kind v).withdrawPoll i).entry i).line := by
      obtain ⟨-, -, h, -⟩ := ((kept_verdictNoted s i u.kind v).trans (kept_withdrawPoll _ i)).map i
      exact h.symm
    exact w.trans (w.trans (w.trans hnoted (w.withdrawPoll _)) (w.removeStops _ _ hline)) (w.verdictMove _ _ _ _)

theorem failStart (w : OwnWork i R) (s : State) (t : CurrentTest) (v : Verdict) : R s (s.failStart i t v) := by
  have hentry := w.setEntry s { s.entry i with
    attempts := min ((s.entry i).attempts + 1) s.settings.maxAttempts, lastVerdict := some (v, t.kind) }
    ⟨sameIdentity_refl _, rfl, rfl⟩
  unfold State.failStart
  dsimp only
  split
  · exact w.trans (w.trans (w.trans hentry (w.raiseIf _ _)) (w.setEntryState _ _)) (w.raise _ _)
  · exact w.trans (w.trans hentry (w.raiseIf _ _)) (w.setEntryState _ _)

theorem takeBack (w : OwnWork i R) (s : State) (r : BlockReason) : R s (s.takeBack i r) :=
  w.setEntry s _ ⟨sameIdentity_refl _, rfl, rfl⟩

theorem startEnd (w : OwnWork i R) (s : State) (t : CurrentTest) (e : ExchangeEnd) : R s (s.startEnd i t e) := by
  unfold State.startEnd
  split
  · exact w.setEntry s _ ⟨sameIdentity_refl _, rfl, rfl⟩
  · exact w.failStart s t _
  · exact w.failStart s t _
  · exact w.failStart s t _
  · exact w.takeBack s _
  · exact w.takeBack s _

theorem toEnding (w : OwnWork i R) (s : State) (t : CurrentTest) : R s (s.toEnding i t) :=
  w.trans (w.setEntryState s _) (w.withdrawPoll _)

theorem consumeTesting (w : OwnWork i R) (s : State) (t : CurrentTest) (r : TestReport) :
    R s (s.consumeTesting i t r) := by
  have h := w.setEntryState s (.testing { t with missed := 0 })
  unfold State.consumeTesting
  dsimp only
  split
  · exact w.trans h (w.recordVerdict _ _ _)
  split
  · exact w.trans h (w.recordVerdict _ _ _)
  split
  · split
    · exact h
    · exact w.trans h (w.toEnding _ _)
  · exact w.trans h (w.recordVerdict _ _ _)

theorem consumeEnding (w : OwnWork i R) (s : State) (t : CurrentTest) (r : TestReport) :
    R s (s.consumeEnding i t r) := by
  have h := w.setEntryState s (.ending { t with missed := 0 })
  unfold State.consumeEnding
  dsimp only
  split
  · exact w.trans h (w.recordVerdict _ _ _)
  split
  · exact w.trans h (w.recordVerdict _ _ _)
  · exact h

theorem missPoll (w : OwnWork i R) (s : State) (t : CurrentTest) : R s (s.missPoll i t) := by
  have h := w.setEntryState s (.testing { t with missed := t.missed + 1 })
  unfold State.missPoll
  dsimp only
  split
  · exact w.trans h (w.recordVerdict _ _ _)
  · exact h

theorem endForTesting (w : OwnWork i R) (s : State) (t : CurrentTest) (name : ReqName) (poll : Bool)
    (e : ExchangeEnd) : R s (s.endForTesting i t name poll e) := by
  have hmiss : R s (if poll then s.missPoll i t else s) := by
    split
    · exact w.missPoll s t
    · exact w.refl s
  have hjoin : R s (if poll then s.joinPoll i else s) := by
    split
    · exact w.joinPoll s
    · exact w.refl s
  unfold State.endForTesting
  split
  · split
    · exact w.consumeTesting _ _ _
    · exact w.refl s
    · exact hmiss
    · exact hmiss
    · exact hjoin
    · exact hjoin
  · split
    · exact w.recordVerdict _ _ _
    · exact w.refl s
  · exact w.refl s

theorem endForEnding (w : OwnWork i R) (s : State) (t : CurrentTest) (name : ReqName) (e : ExchangeEnd) :
    R s (s.endForEnding i t name e) := by
  unfold State.endForEnding
  split
  · split
    · exact w.consumeEnding _ _ _
    · exact w.refl s
  · split
    · exact w.recordVerdict _ _ _
    · exact w.refl s
    · exact w.recordVerdict _ _ _
    · exact w.recordVerdict _ _ _
    · exact w.refl s
    · exact w.refl s
  · exact w.refl s

/-- The Monitor works at the entry of the place. -/
theorem monitorEnd (w : OwnWork i R) {s : State} {n : LineId} {node : Nat} (h : s.findPlace n node = some i)
    (name : ReqName) (poll : Bool) (e : ExchangeEnd) : R s (s.monitorEnd n node name poll e) := by
  unfold State.monitorEnd
  rw [h]
  dsimp only
  split
  · unfold State.endForPending
    split
    · exact w.startEnd _ _ _
    · exact w.refl s
  · exact w.endForTesting _ _ _ _ _
  · exact w.endForEnding _ _ _ _
  all_goals exact w.refl s

end OwnWork

/-- Where no entry has the place the Monitor does nothing. -/
theorem monitorEnd_nobody {s : State} {n : LineId} {node : Nat} (h : s.findPlace n node = none) (name : ReqName)
    (poll : Bool) (e : ExchangeEnd) : s.monitorEnd n node name poll e = s := by
  rw [State.monitorEnd, h]

/-! ### Touched marks -/

/-- Every entry keeps its touched mark. -/
def TouchedKept (s t : State) : Prop := ∀ j : EntryId, (t.entry j).touched = (s.entry j).touched

theorem touchedKept_of_eq {s t : State} (h : t.entries = s.entries) : TouchedKept s t := fun j => by
  rw [entry_congr h]

theorem touchedKept_of_holds {s t : State} (h : Holds s t) : TouchedKept s t := fun j => by
  rcases h j with h | ⟨-, h⟩
  · rw [h]
  · rw [h]

theorem touchedKept_ownWork (i : EntryId) : OwnWork i TouchedKept where
  refl := fun _ _ => rfl
  trans := fun h k j => (k j).trans (h j)
  setEntry := fun s e h j => by
    rw [setEntry_entry]
    split
    · next hij =>
      obtain ⟨-, -, htouched⟩ := h
      rw [htouched, hij]
    · rfl
  raise := fun s f => touchedKept_of_eq (raise_entries s f)
  joinPoll := fun s => touchedKept_of_eq (joinPoll_entries s i)
  withdrawPoll := fun s => touchedKept_of_holds (holds_withdrawPoll s i)
  removeStops := fun s n _ => touchedKept_of_holds (holds_removeControl s n _ _)

/-! ### A capture whose request waits nowhere -/

/-- No waiting PROBE and no waiting bridge request of a line has the mark. -/
def MarkFree (k : Nat) (l : LineEngine) : Prop :=
  (∀ p ∈ l.polls, p.mark ≠ some k) ∧ ∀ c ∈ l.control, c.mark ≠ some k

/-- An OPEN capture whose request does not wait on the entry's line stays as it is, and so do the holds. -/
def Undisturbed (k : Nat) (i : EntryId) (s t : State) : Prop :=
  ∀ record, s.capture.state = .opened record k → MarkFree k (s.line (s.entry i).line) →
    t.capture = s.capture ∧ (t.entry i).line = (s.entry i).line ∧ MarkFree k (t.line (t.entry i).line) ∧
      ∀ j, (t.entry j).held = (s.entry j).held

theorem undisturbed_of_eq {k : Nat} {i : EntryId} {s t : State} (hc : t.capture = s.capture)
    (hl : t.lines = s.lines) (he : t.entries = s.entries) : Undisturbed k i s t := fun _ _ hfree => by
  rw [entry_congr he, line_congr hl]
  exact ⟨hc, rfl, hfree, fun j => by rw [entry_congr he]⟩

theorem undisturbed_setLine {k : Nat} {i : EntryId} {s : State} {n : LineId} {l : LineEngine}
    (hn : n = (s.entry i).line) (h : MarkFree k (s.line n) → MarkFree k l) : Undisturbed k i s (s.setLine n l) :=
  fun _ _ hfree => by
    subst hn
    refine ⟨rfl, rfl, ?_, fun _ => rfl⟩
    have hline : ((s.setLine (s.entry i).line l).entry i).line = (s.entry i).line := rfl
    rw [hline, setLine_line_self]
    exact h hfree

theorem undisturbed_ownWork (k : Nat) (i : EntryId) : OwnWork i (Undisturbed k i) where
  refl := fun s _ _ hfree => ⟨rfl, rfl, hfree, fun _ => rfl⟩
  trans := fun h h' record hopened hfree => by
    obtain ⟨hc, hline, hfree', hheld⟩ := h record hopened hfree
    obtain ⟨hc', hline', hfree'', hheld'⟩ := h' record (by rw [hc]; exact hopened) hfree'
    exact ⟨hc'.trans hc, hline'.trans hline, hfree'', fun j => (hheld' j).trans (hheld j)⟩
  setEntry := fun s e h record hopened hfree => by
    obtain ⟨⟨-, -, hline, -⟩, hheld, -⟩ := h
    have hown : ((s.setEntry i e).entry i).line = (s.entry i).line := by rw [setEntry_entry_self, hline]
    refine ⟨rfl, hown, ?_, fun j => ?_⟩
    · rw [hown]
      exact hfree
    · rw [setEntry_entry]
      split
      · next hij => rw [hheld, hij]
      · rfl
  raise := fun s f => undisturbed_of_eq (raise_capture s f) (raise_lines s f) (raise_entries s f)
  joinPoll := fun s record hopened hfree => by
    have hwatch : s.capture.state ≠ .watching := by rw [hopened]; exact fun h => nomatch h
    have hentry (j : EntryId) : (s.joinPoll i).entry j = s.entry j := entry_congr (joinPoll_entries s i) j
    refine ⟨captureFixed_joinPoll s i hwatch, by rw [hentry], ?_, fun j => by rw [hentry]⟩
    rw [hentry]
    cases hw : (s.line (s.entry i).line).polls.any (fun p => p.entry == i) with
    | true => rw [joinPoll_waiting hw]; exact hfree
    | false =>
      rw [joinPoll_line hw]
      refine ⟨fun p hp => ?_, hfree.2⟩
      rcases List.mem_cons.mp ((insertPoll_perm _ _).mem_iff.mp hp) with rfl | hp
      · have hmatch : ¬s.captureMatches .probe i = true := fun h => hwatch (captureMatches_iff.mp h).1
        dsimp only [State.captureMark]
        rw [if_neg hmatch]
        exact fun h => nomatch h
      · exact hfree.1 p hp
  withdrawPoll := fun s record hopened hfree => by
    have hother : ∀ p ∈ (s.line (s.entry i).line).polls, p.entry = i → s.capture.recorded p.mark = false :=
      fun p hp _ => by rw [← Bool.not_eq_true, recorded_opened hopened]; exact hfree.1 p hp
    rw [withdrawPoll_other hother]
    exact undisturbed_setLine rfl (fun h => ⟨fun p hp => h.1 p ((List.mem_filter.mp hp).1), h.2⟩) record hopened hfree
  removeStops := fun s n hn record hopened hfree => by
    have hother : ∀ c ∈ (s.line n).control, ControlRequest.isStopFor i c = true → s.capture.recorded c.mark = false :=
      fun c hc _ => by rw [← Bool.not_eq_true, recorded_opened hopened]; rw [hn] at hc; exact hfree.2 c hc
    rw [removeControl_other hother]
    exact undisturbed_setLine hn (fun h => ⟨h.1, fun c hc => h.2 c ((List.mem_filter.mp hc).1)⟩) record hopened hfree

/-! ### Ends that meet no waiting request -/

/-- A request that is neither a PROBE nor a stop has the Monitor end a start, or do nothing. -/
theorem monitorEnd_plain {s : State} {n : LineId} {node : Nat} {name : ReqName}
    (hname : name ≠ .probe ∧ name ≠ .stopTest) (poll : Bool) (e : ExchangeEnd) :
    s.monitorEnd n node name poll e = s ∨ ∃ i u, s.monitorEnd n node name poll e = s.startEnd i u e := by
  unfold State.monitorEnd
  split
  · exact .inl rfl
  · next i _ =>
    split
    · next u _ =>
      unfold State.endForPending
      split
      · exact .inr ⟨i, u, rfl⟩
      · exact .inl rfl
    · unfold State.endForTesting
      split
      · exact absurd rfl hname.1
      · exact absurd rfl hname.2
      · exact .inl rfl
    · unfold State.endForEnding
      split
      · exact absurd rfl hname.1
      · exact absurd rfl hname.2
      · exact .inl rfl
    all_goals exact .inl rfl

/-- An entry without a test is left. -/
theorem monitorEnd_untested {s : State} {n : LineId} {node : Nat} {i : EntryId} (h : s.findPlace n node = some i)
    (htest : (s.entry i).state.test = none) (name : ReqName) (poll : Bool) (e : ExchangeEnd) :
    s.monitorEnd n node name poll e = s := by
  unfold State.monitorEnd
  rw [h]
  dsimp only
  split
  · next u hstate => rw [hstate] at htest; cases htest
  · next u hstate => rw [hstate] at htest; cases htest
  · next u hstate => rw [hstate] at htest; cases htest
  all_goals rfl

/-- The capture and the holds are the same. -/
def CaptureKept (s t : State) : Prop := t.capture = s.capture ∧ ∀ j, (t.entry j).held = (s.entry j).held

theorem CaptureKept.refl (s : State) : CaptureKept s s := ⟨rfl, fun _ => rfl⟩

theorem CaptureKept.trans {s t u : State} (h : CaptureKept s t) (k : CaptureKept t u) : CaptureKept s u :=
  ⟨k.1.trans h.1, fun j => (k.2 j).trans (h.2 j)⟩

theorem captureKept_setEntry (s : State) (i : EntryId) (e : Entry) (h : Rewrites (s.entry i) e) :
    CaptureKept s (s.setEntry i e) := by
  refine ⟨rfl, fun j => ?_⟩
  rw [setEntry_entry]
  split
  · next hij =>
    obtain ⟨-, hheld, -⟩ := h
    rw [hheld, hij]
  · rfl

theorem captureKept_setEntryState (s : State) (i : EntryId) (st : EntryState) : CaptureKept s (s.setEntryState i st) :=
  captureKept_setEntry s i _ (rewrites_state _ st)

theorem captureKept_raise (s : State) (f : EventFlag) : CaptureKept s (s.raise f) :=
  ⟨raise_capture s f, fun j => by rw [raise_entry]⟩

theorem captureKept_raiseIf (s : State) (f : Option EventFlag) : CaptureKept s (s.raiseIf f) := by
  cases f with
  | none => exact .refl s
  | some f => exact captureKept_raise s f

theorem captureKept_failStart (s : State) (i : EntryId) (u : CurrentTest) (v : Verdict) :
    CaptureKept s (s.failStart i u v) := by
  have hentry := captureKept_setEntry s i { s.entry i with
    attempts := min ((s.entry i).attempts + 1) s.settings.maxAttempts, lastVerdict := some (v, u.kind) }
    ⟨sameIdentity_refl _, rfl, rfl⟩
  have hraised := hentry.trans (captureKept_raiseIf _ v.flag)
  unfold State.failStart
  dsimp only
  split
  · exact (hraised.trans (captureKept_setEntryState _ _ _)).trans (captureKept_raise _ _)
  · exact hraised.trans (captureKept_setEntryState _ _ _)

theorem captureKept_startEnd (s : State) (i : EntryId) (u : CurrentTest) (e : ExchangeEnd) :
    CaptureKept s (s.startEnd i u e) := by
  unfold State.startEnd
  split
  · exact captureKept_setEntry s i _ ⟨sameIdentity_refl _, rfl, rfl⟩
  · exact captureKept_failStart s i u _
  · exact captureKept_failStart s i u _
  · exact captureKept_failStart s i u _
  · exact captureKept_setEntry s i _ ⟨sameIdentity_refl _, rfl, rfl⟩
  · exact captureKept_setEntry s i _ ⟨sameIdentity_refl _, rfl, rfl⟩

end Sys2Proof.OwnEntry
end

section
/-! Answers heard and windows that close: the next attempt, or the end with its answer and its capture (R9, R134, R137,
R140, R162, R166, R188). -/

namespace Sys2Proof.Attempts

open Sys2Proof Sys2Proof.Machine Sys2Proof.Machine.Safety Sys2Proof.Laws Sys2Proof.Walks Sys2Proof.DeviceLaws
  Sys2Proof.LineOrder Sys2Proof.EntryOrder Sys2Proof.SchedulingPass Sys2Proof.LineService Sys2Proof.Captures
  Sys2Proof.Verdicts Sys2Proof.ReportsAndStops Sys2Proof.ExchangeEnds Sys2Proof.StartsAndPolls Sys2Proof.AnswerForms
  Sys2Proof.OwnEntry

section End

variable {s : State} {n : LineId} {x : Exchange} {e : ExchangeEnd}

/-- What the Monitor makes of an end, the engine in GAP. -/
def monitoredEnd (s : State) (n : LineId) (x : Exchange) (e : ExchangeEnd) : State :=
  (s.setEngine n .gap).monitorEnd n x.node x.work.name x.work.isPoll e

theorem kept_monitoredEnd (s : State) (n : LineId) (x : Exchange) (e : ExchangeEnd) : Kept s (monitoredEnd s n x e) :=
  (kept_setEngine s n .gap).trans (kept_monitorEnd _ _ _ _ _ _)

theorem kept_noted (s : State) (n : LineId) (x : Exchange) (e : ExchangeEnd) : Kept s (noted s n x e) :=
  (kept_monitoredEnd s n x e).trans (kept_captureEnd _ _ _ _)

theorem findPlace_of_sameMap {s t : State} (h : SameMap s t) (n : LineId) (node : Nat) :
    t.findPlace n node = s.findPlace n node := by
  unfold State.findPlace
  refine congrArg (fun p => List.find? p allEntries) (funext fun i => ?_)
  obtain ⟨hin, -, hline, hnode, -⟩ := h i
  rw [hin, hline, hnode]

theorem passAnswer_congr {s t : State} (h : Kept s t) (r : PassRequest) (code : LampCode) (f : List Byte) :
    t.passAnswer r code f = s.passAnswer r code f := by
  unfold State.passAnswer State.frameTo State.stationAddress
  rw [h.strap, h.settings]

/-! ### Where the answer goes -/

/-- A pass-through exchange ends with its answer (R140). -/
theorem ended_placed {r : PassRequest} (he : e ≠ .aborted ∧ e ≠ .lineDown) (hw : x.work = .passThrough r) :
    AnswerPlaced s ((s.endExchange n x e).settleLine n) n (s.passAnswer r e.lampCode e.fields) := by
  obtain ⟨-, ⟨stops, -, hline⟩, htx, -⟩ := endExchange_settled he s n x
  obtain ⟨-, hbacklog, -, hnotedTx⟩ := noted_line s n x e
  have hframe : ((noted s n x e).touch n r e).passAnswer r e.lampCode e.fields = s.passAnswer r e.lampCode e.fields := by
    have hstrap : ((noted s n x e).touch n r e).passAnswer r e.lampCode e.fields =
        (noted s n x e).passAnswer r e.lampCode e.fields := passAnswer_congr (kept_touch _ _ _ _) _ _ _
    rw [hstrap, passAnswer_congr (kept_noted s n x e)]
  have hend : s.endExchange n x e =
      ((noted s n x e).touch n r e).passAnswerOut n (s.passAnswer r e.lampCode e.fields) := by
    rw [endExchange_eq, hw, clientEnd_pass he.2, hframe]
  have hplaced := answerPlaced_passAnswerOut ((noted s n x e).touch n r e) n (s.passAnswer r e.lampCode e.fields)
  rw [← hend] at hplaced
  obtain ⟨htouchTx, -⟩ := touch_rest (noted s n x e) n r e
  have htouchLine : ((noted s n x e).touch n r e).line n = (noted s n x e).line n :=
    line_congr (touch_lines _ _ _ _) n
  unfold AnswerPlaced at hplaced ⊢
  rw [htouchLine, hbacklog, htouchTx, hnotedTx] at hplaced
  rw [htx, hline]
  exact hplaced

/-- Any other exchange leaves the line in GAP, no answer owed. -/
theorem ended_released (he : e ≠ .aborted ∧ e ≠ .lineDown) (hw : ∀ r, x.work ≠ .passThrough r) :
    let t := (s.endExchange n x e).settleLine n
    (t.line n).engine = .gap ∧ t.tx = s.tx ∧ (t.line n).backlog = (s.line n).backlog := by
  obtain ⟨-, ⟨stops, -, hline⟩, htx, -⟩ := endExchange_settled he s n x
  obtain ⟨hengine, hbacklog, -, hnotedTx⟩ := noted_line s n x e
  have hend : s.endExchange n x e = noted s n x e := by rw [endExchange_eq, clientEnd_done hw he]
  intro t
  rw [hline, htx, hend]
  exact ⟨hengine, hnotedTx, hbacklog⟩

/-! ### The capture of an ended request (R166) -/

/-- No other waiting request the Monitor may withdraw has the mark. -/
def MarkAlone (s : State) (n : LineId) (x : Exchange) (k : Nat) : Prop :=
  (x.work.name ≠ .probe ∧ x.work.name ≠ .stopTest) ∨
    (∀ i, s.findPlace n x.node = some i → (s.entry i).state.test = none) ∨
    ((∀ p ∈ (s.line n).polls, p.mark ≠ some k) ∧ ∀ c ∈ (s.line n).control, c.mark ≠ some k)

theorem monitoredEnd_captureKept {record : CaptureRecord} {k : Nat} (hopened : s.capture.state = .opened record k)
    (halone : MarkAlone s n x k) (e : ExchangeEnd) : CaptureKept s (monitoredEnd s n x e) := by
  have hgap : CaptureKept s (s.setEngine n .gap) := ⟨rfl, fun _ => rfl⟩
  refine hgap.trans ?_
  cases hplace : s.findPlace n x.node with
  | none =>
    rw [monitoredEnd, monitorEnd_nobody (s := s.setEngine n .gap) hplace]
    exact .refl _
  | some i =>
    rcases halone with hname | htest | hfree
    · rcases monitorEnd_plain (s := s.setEngine n .gap) (n := n) (node := x.node) hname x.work.isPoll e with h | ⟨j, u, h⟩
      · rw [monitoredEnd, h]
        exact .refl _
      · rw [monitoredEnd, h]
        exact captureKept_startEnd _ _ _ _
    · rw [monitoredEnd, monitorEnd_untested (s := s.setEngine n .gap) hplace (htest i hplace)]
      exact .refl _
    · have hwork := (undisturbed_ownWork k i).monitorEnd (s := s.setEngine n .gap) hplace x.work.name x.work.isPoll e
      obtain ⟨-, hn, -⟩ := findPlace_some hplace
      have hmarks : MarkFree k ((s.setEngine n .gap).line ((s.setEngine n .gap).entry i).line) := by
        rw [setEngine_entry, hn, setEngine_line_self]
        exact hfree
      obtain ⟨hc, -, -, hheld⟩ := hwork record hopened hmarks
      exact ⟨hc, hheld⟩

/-- The end of the recorded request completes the capture. -/
theorem ended_completed {record : CaptureRecord} {k : Nat} (he : e ≠ .aborted ∧ e ≠ .lineDown)
    (hopened : s.capture.state = .opened record k) (hmark : x.work.mark = some k) (halone : MarkAlone s n x k) :
    CaptureCompleted s ((s.endExchange n x e).settleLine n) record x.work.entry e.captureAnswer := by
  obtain ⟨hcapture, hheld⟩ := monitoredEnd_captureKept hopened halone e
  obtain ⟨hin, hcln, -⟩ := (kept_monitoredEnd s n x e).map x.work.entry
  have hnoted : CaptureCompleted s (noted s n x e) record x.work.entry e.captureAnswer := by
    rw [noted, hmark]
    exact completed_before (captureEnd_completed (by rw [← hopened, ← hcapture]; rfl) _ _) hcapture (hheld _) hin hcln
  have ⟨hidle, _⟩ := hnoted
  obtain ⟨hentries, -, -, hflags⟩ := endExchange_settled he s n x
  obtain ⟨hflags', hcapture'⟩ := endExchange_flags he s n x
  have hfixed : ((s.endExchange n x e).settleLine n).capture = (s.endExchange n x e).capture :=
    settleLine_capture (by rw [hcapture', hidle]; exact fun h => nomatch h)
  refine completed_after hnoted (hfixed.trans hcapture') (flagsStay_of_eq (hflags.trans hflags')) ?_
  rw [entry_congr hentries, endExchange_eq]
  cases hw : x.work with
  | passThrough r =>
    rw [clientEnd_pass he.2]
    obtain ⟨houtEntries, -⟩ := passAnswerOut_rest ((noted s n x e).touch n r e) n
      (((noted s n x e).touch n r e).passAnswer r e.lampCode e.fields)
    obtain ⟨touched, htouch⟩ := touch_entry (noted s n x e) n r e (Work.passThrough r).entry
    rw [entry_congr houtEntries, htouch]
  | control r => rw [clientEnd_done (by rintro _ ⟨⟩) he]
  | poll r => rw [clientEnd_done (by rintro _ ⟨⟩) he]

/-! ### Touched (R9) -/

theorem noted_touched (s : State) (n : LineId) (x : Exchange) (e : ExchangeEnd) : TouchedKept s (noted s n x e) := by
  have hgap : TouchedKept s (s.setEngine n .gap) := fun _ => rfl
  have hmonitor : TouchedKept (s.setEngine n .gap) (monitoredEnd s n x e) := by
    unfold monitoredEnd
    cases hplace : s.findPlace n x.node with
    | none =>
      rw [monitorEnd_nobody (s := s.setEngine n .gap) hplace]
      exact fun _ => rfl
    | some i => exact (touchedKept_ownWork i).monitorEnd (s := s.setEngine n .gap) hplace _ _ _
  have hhold := touchedKept_of_holds (holds_captureEnd (monitoredEnd s n x e) x.work.mark x.work.entry e.captureAnswer)
  exact fun j => (hhold j).trans ((hmonitor j).trans (hgap j))

/-- A change answered OK touches the entry at the place, where it still has the campus number. -/
theorem ended_touched {r : PassRequest} {i : EntryId} {a : NodeAnswer} {f : List Byte}
    (hw : x.work = .passThrough r) (hplace : s.findPlace n r.node = some i) :
    (((s.endExchange n x (.answered a f)).settleLine n).entry i).touched =
      ((s.entry i).touched || decide (a = .change true ∧ (s.entry i).cln = r.cln)) := by
  have he : ExchangeEnd.answered a f ≠ .aborted ∧ ExchangeEnd.answered a f ≠ .lineDown := ⟨nofun, nofun⟩
  obtain ⟨hentries, -⟩ := endExchange_settled he s n x
  have htouched := noted_touched s n x (.answered a f) i
  obtain ⟨-, hcln, -⟩ := (kept_noted s n x (.answered a f)).map i
  have hplace' : (noted s n x (.answered a f)).findPlace n r.node = some i :=
    (findPlace_of_sameMap (kept_noted s n x (.answered a f)).map n r.node).trans hplace
  rw [entry_congr hentries, endExchange_eq, hw, clientEnd_pass he.2]
  generalize noted s n x (.answered a f) = b at *
  obtain ⟨houtEntries, -⟩ := passAnswerOut_rest (b.touch n r (.answered a f)) n
    ((b.touch n r (.answered a f)).passAnswer r (ExchangeEnd.answered a f).lampCode (ExchangeEnd.answered a f).fields)
  rw [entry_congr houtEntries]
  by_cases ha : a = .change true
  · subst ha
    unfold State.touch
    dsimp only
    rw [hplace']
    dsimp only
    rw [hcln]
    split
    · next h => rw [setEntry_entry_self, decide_eq_true ⟨rfl, h⟩, Bool.or_true]
    · next h => rw [htouched, decide_eq_false fun hd => h hd.2, Bool.or_false]
  · rw [touch_none fun g hg => ha (ExchangeEnd.answered.inj hg).1, htouched, decide_eq_false fun hd => ha hd.1,
      Bool.or_false]

end End

/-! ### The statement -/

section Statement

variable {s : State} {n : LineId} {x : Exchange} {w : Nat}

theorem exec_stray (hengine : (s.line n).engine = .awaiting x w) {heard : List Byte}
    (h : checkAnswer x.node x.number x.work.name heard = .stray) :
    exec (.lineAnswerReceived n heard) s = .next s := by
  have hexec : exec (.lineAnswerReceived n heard) s = .next (s.answerHeard n heard) := rfl
  rw [hexec, State.answerHeard, hengine]
  dsimp only
  rw [h]

theorem exec_bad (hengine : (s.line n).engine = .awaiting x w) {heard : List Byte}
    (h : checkAnswer x.node x.number x.work.name heard = .bad) :
    exec (.lineAnswerReceived n heard) s = .next ((s.attemptEnd n x true).settleLine n) := by
  have hexec : exec (.lineAnswerReceived n heard) s = .next (s.answerHeard n heard) := rfl
  rw [hexec, State.answerHeard, hengine]
  dsimp only
  rw [h]

/-- The next attempt sends the same request, and of the line only stops are placed (R137). -/
theorem attemptEnd_next (h : x.made < x.allowed) (bad : Bool) :
    ∃ stops : List ControlRequest, ((s.attemptEnd n x bad).settleLine n).line n = { s.line n with
      engine := .sending { x with made := x.made + 1, badSeen := x.badSeen || bad }
      control := (s.line n).control ++ stops } := by
  rw [attemptEnd_again h]
  obtain ⟨stops, -, hline⟩ := settleLine_busy_line (n := n)
    (s := s.setEngine n (.sending { x with made := x.made + 1, badSeen := x.badSeen || bad }))
    (by rw [setEngine_line_self]; exact fun h => nomatch h)
  rw [setEngine_line_self] at hline
  exact ⟨stops, hline⟩

theorem attemptEnd_next_tx (h : x.made < x.allowed) (bad : Bool) :
    ((s.attemptEnd n x bad).settleLine n).tx = s.tx := by
  rw [attemptEnd_again h, (quiet_lineWork.settleLine _ _).tx]
  rfl

theorem outcome_frame (s : State) (r : PassRequest) (b : Bool) :
    s.passAnswer r (if b then ExchangeEnd.badAnswer else .noAnswer).lampCode
      (if b then ExchangeEnd.badAnswer else .noAnswer).fields =
      outcomeFrame s (if b then .badAnswer else .noAnswer) r := by
  cases b
  · rfl
  · rfl

theorem outcome_captureAnswer (b : Bool) : (if b then ExchangeEnd.badAnswer else .noAnswer).captureAnswer =
    .outcome (if b then .badAnswer else .noAnswer) := by
  cases b
  · rfl
  · rfl

/-- Settles O26: strays, attempts, and the ends of pass-through and other exchanges. -/
theorem attemptsEnd : Obligations.AttemptsEnd := by
  intro s n x w hengine markAlone placed released badAnswer
  have hbad {c : Instr} (hrun : exec c s = .next ((s.attemptEnd n x true).settleLine n)) : badAnswer c := by
    refine ⟨fun hmore => ⟨_, hrun, ?_⟩, fun hlast => ?_⟩
    · obtain ⟨stops, hline⟩ := attemptEnd_next (s := s) (n := n) hmore true
      rw [hline, Bool.or_true]
    · rw [attemptEnd_last hlast, Bool.or_true, if_pos rfl] at hrun
      have he : ExchangeEnd.badAnswer ≠ .aborted ∧ ExchangeEnd.badAnswer ≠ .lineDown := ⟨nofun, nofun⟩
      refine ⟨fun r hw => ⟨_, hrun, ended_placed (x := { x with badSeen := true }) he hw⟩, fun hw => ⟨_, hrun, ?_⟩,
        fun record k hopened hmark halone => ⟨_, hrun, ?_⟩⟩
      · exact ended_released (x := { x with badSeen := true }) he hw
      · exact ended_completed (x := { x with badSeen := true }) he hopened hmark halone
  refine ⟨fun b hlength h4 h => exec_stray hengine (checkAnswer_stray hlength h4 h),
    fun b k hlength h4 h => hbad (exec_bad hengine (checkAnswer_bad hlength h4 h)),
    fun f hnode hlength h => hbad (exec_bad hengine (checkAnswer_notAdmitted hnode hlength h)),
    fun cut hmore => ⟨_, exec_windowClose hengine cut, ?_⟩,
    fun cut r hlast hw => ⟨_, exec_windowClose_last hengine hlast cut, ?_⟩,
    fun r f hw hr hnode hf => ?_, fun hw => ⟨fun cut hlast => ⟨_, exec_windowClose_last hengine hlast cut, ?_⟩,
    fun f hnode hf => ?_⟩, fun record k hopened hmark halone =>
      ⟨fun cut hlast => ⟨_, exec_windowClose_last hengine hlast cut, ?_⟩, fun f hnode hf => ?_⟩⟩
  · obtain ⟨stops, hline⟩ := attemptEnd_next (s := s) (n := n) hmore cut
    rw [hline]
    exact ⟨rfl, rfl, rfl, rfl, attemptEnd_again_settled hmore cut, attemptEnd_next_tx hmore cut⟩
  · have hplaced := ended_placed (s := s) (n := n) (x := { x with badSeen := x.badSeen || cut })
      (unanswered_ends (outcome_unanswered (x.badSeen || cut))) hw
    rw [outcome_frame] at hplaced
    exact hplaced
  · obtain ⟨a, ha, hchange⟩ := decodes_of_admitted hf
    have hname : x.work.name = r.name := by rw [hw]; rfl
    have he : ExchangeEnd.answered a f ≠ .aborted ∧ ExchangeEnd.answered a f ≠ .lineDown := ⟨nofun, nofun⟩
    have hplaced := ended_placed (s := s) (n := n) he hw
    rw [show (ExchangeEnd.answered a f).lampCode = .ok from rfl,
      show (ExchangeEnd.answered a f).fields = f from rfl, passAnswer_node] at hplaced
    refine ⟨_, exec_taken hengine hnode (by rw [hname]; exact ha), hplaced, fun i hplace => ?_⟩
    rw [ended_touched hw hplace, decide_eq_decide.mpr (and_congr_left fun _ => hchange)]
  · exact ended_released (x := { x with badSeen := x.badSeen || cut })
      (unanswered_ends (outcome_unanswered (x.badSeen || cut))) hw
  · obtain ⟨a, ha, -⟩ := decodes_of_admitted hf
    exact ⟨_, exec_taken hengine hnode ha, ended_released ⟨nofun, nofun⟩ hw⟩
  · have hdone := ended_completed (x := { x with badSeen := x.badSeen || cut })
      (unanswered_ends (outcome_unanswered (x.badSeen || cut))) hopened hmark halone
    rw [outcome_captureAnswer] at hdone
    exact hdone
  · obtain ⟨a, ha, -⟩ := decodes_of_admitted hf
    have he : ExchangeEnd.answered a f ≠ .aborted ∧ ExchangeEnd.answered a f ≠ .lineDown := ⟨nofun, nofun⟩
    exact ⟨_, exec_taken hengine hnode ha, ended_completed he hopened hmark halone⟩

end Statement

end Sys2Proof.Attempts
end

section
/-! The request sent, the end of the gap and the grant behind it (R92, R137, R139, R144, R145). -/

namespace Sys2Proof.Gap

open Sys2Proof Sys2Proof.Machine Sys2Proof.Machine.Safety Sys2Proof.Laws Sys2Proof.Walks Sys2Proof.DeviceLaws
  Sys2Proof.LineService Sys2Proof.StartsAndPolls

/-! ### Who is granted (R144) -/

section Next

variable {l : LineEngine}

theorem nextClient_pass (h : l.pass ≠ []) (hp : l.pointer = .poll ∨ (l.pointer = .control ∧ l.polls = []) ∨
    (l.pointer = .passThrough ∧ l.control = [] ∧ l.polls = [])) : l.nextClient = some .passThrough := by
  rcases hp with hp | ⟨hp, hl⟩ | ⟨hp, hc, hl⟩
  · simp [LineEngine.nextClient, hp, Client.rotation, LineEngine.hasWork, h]
  · simp [LineEngine.nextClient, hp, Client.rotation, LineEngine.hasWork, h, hl]
  · simp [LineEngine.nextClient, hp, Client.rotation, LineEngine.hasWork, h, hl, hc]

theorem nextClient_control (h : l.control ≠ []) (hp : l.pointer = .passThrough ∨ (l.pointer = .poll ∧ l.pass = []) ∨
    (l.pointer = .control ∧ l.polls = [] ∧ l.pass = [])) : l.nextClient = some .control := by
  rcases hp with hp | ⟨hp, hl⟩ | ⟨hp, hl, hc⟩
  · simp [LineEngine.nextClient, hp, Client.rotation, LineEngine.hasWork, h]
  · simp [LineEngine.nextClient, hp, Client.rotation, LineEngine.hasWork, h, hl]
  · simp [LineEngine.nextClient, hp, Client.rotation, LineEngine.hasWork, h, hl, hc]

theorem nextClient_poll (h : l.polls ≠ []) (hp : l.pointer = .control ∨ (l.pointer = .passThrough ∧ l.control = []) ∨
    (l.pointer = .poll ∧ l.pass = [] ∧ l.control = [])) : l.nextClient = some .poll := by
  rcases hp with hp | ⟨hp, hl⟩ | ⟨hp, hl, hc⟩
  · simp [LineEngine.nextClient, hp, Client.rotation, LineEngine.hasWork, h]
  · simp [LineEngine.nextClient, hp, Client.rotation, LineEngine.hasWork, h, hl]
  · simp [LineEngine.nextClient, hp, Client.rotation, LineEngine.hasWork, h, hl, hc]

end Next

/-! ### The end of a gap (R139) -/

section GapEnd

variable {s : State} {n : LineId}

/-- The line fallen IDLE. -/
def idled (s : State) (n : LineId) : State := s.setEngine n .idle

theorem idled_line (s : State) (n : LineId) : (idled s n).line n = { s.line n with engine := .idle } :=
  setEngine_line_self s n .idle

theorem idled_owes (hgap : (s.line n).engine = .gap) (h : s.owedStop n = none) : (idled s n).owedStop n = none := by
  refine owedStop_none_of h (fun i hi => ⟨hi, rfl⟩) fun node hnode => ?_
  rw [idled_line]
  rw [stopStands_iff] at hnode ⊢
  rcases hnode with h | h | ⟨x, hx, -⟩
  · exact .inl h
  · exact .inr (.inl h)
  · rw [hgap] at hx
    cases hx

/-- A gap that ends on a line that owes no stop is the grant. -/
theorem exec_gapEnd (hgap : (s.line n).engine = .gap) (h : s.owedStop n = none) :
    exec (.gapEnd n) s = .next ((idled s n).grant n) := by
  have hexec : exec (.gapEnd n) s = .next (s.gapEnd n) := rfl
  have hend : s.gapEnd n = (idled s n).settleLine n := if_pos (by rw [hgap]; rfl)
  rw [hexec, hend, settleLine_of_none (idled_owes hgap h)]

/-- What a grant makes of the entries (R92, R137). -/
def Sent (s t : State) (start : Bool) (i : EntryId) : Prop :=
  (∀ u, start = true → (s.entry i).state = .pending u →
    (t.entry i).state = .pending { u with startSent := true }) ∧
  (start = false → t.entries = s.entries) ∧ ∀ j, j ≠ i → t.entry j = s.entry j

/-- The exchange a granted request begins, on the line it was taken from. -/
theorem beginExchange_sent (s : State) (n : LineId) (l : LineEngine) (c : Client) (w : Work) (node : Nat) :
    ((s.setLine n l).beginExchange n c w node).line n = { l with
      engine := .sending (exchangeOf l w node), exchangeNumber := l.exchangeNumber + 1, pointer := c } ∧
    Sent s ((s.setLine n l).beginExchange n c w node) w.name.isStart w.entry := by
  refine ⟨?_, fun u hstart hu => ?_, fun hstart => ?_, fun j hj => ?_⟩
  · rw [beginExchange_line, setLine_line_self]
  · exact congrArg Entry.state (beginExchange_pending (s := s.setLine n l) hstart hu)
  · exact beginExchange_other (s := s.setLine n l) hstart
  · exact beginExchange_entry_ne (s := s.setLine n l) hj

end GapEnd

theorem isStart_eq (name : ReqName) : name.isStart = (name == .startFunction || name == .startDuration) := by
  cases name <;> rfl

theorem kind_isStart (k : ControlKind) : k.name.isStart = (k != .stopTest) := by
  cases k <;> rfl

/-- Settles O25: the reply window opened, and the grant by the pointer. -/
theorem requestSentAndGapEnd : Obligations.RequestSentAndGapEnd := by
  intro s n l sent
  refine ⟨fun x hx => ?_, fun hgap howed => ?_⟩
  · have hexec : exec (.requestSent n) s = .next (s.requestSent n) := rfl
    rw [hexec, State.requestSent, show (s.line n).engine = .sending x from hx]
    rfl
  · have hrun := exec_gapEnd hgap howed
    have hline := idled_line s n
    have hidle : ((idled s n).line n).engine = .idle := by rw [hline]
    refine ⟨fun hp hc hl => ?_, fun r rest hq hpointer => ?_, fun r rest hq hpointer => ?_,
      fun r rest hq hpointer => ?_⟩
    · have hnone : ((idled s n).line n).nextClient = none := by
        rw [hline]
        exact nextClient_none hp hc hl
      rw [hrun, grant_none hnone]
      rfl
    · have hnext : ((idled s n).line n).nextClient = some .passThrough := by
        rw [hline]
        exact nextClient_pass (by rw [show (s.line n).pass = r :: rest from hq]; exact nofun) hpointer
      have hqueue : ((idled s n).line n).pass = r :: rest := by rw [hline]; exact hq
      rw [grant_idle hidle hnext, grantTo_pass hqueue, hline] at hrun
      obtain ⟨hsent, hentries⟩ := beginExchange_sent (idled s n) n { { s.line n with engine := .idle } with pass := rest }
        .passThrough (.passThrough r) r.node
      refine ⟨_, hrun, hsent, ?_⟩
      rw [← isStart_eq]
      exact hentries
    · have hnext : ((idled s n).line n).nextClient = some .control := by
        rw [hline]
        exact nextClient_control (by rw [show (s.line n).control = r :: rest from hq]; exact nofun) hpointer
      have hqueue : ((idled s n).line n).control = r :: rest := by rw [hline]; exact hq
      rw [grant_idle hidle hnext, grantTo_control hqueue, hline] at hrun
      obtain ⟨hsent, hentries⟩ := beginExchange_sent (idled s n) n
        { { s.line n with engine := .idle } with control := rest } .control (.control r) r.node
      refine ⟨_, hrun, hsent, ?_⟩
      rw [← kind_isStart]
      exact hentries
    · have hnext : ((idled s n).line n).nextClient = some .poll := by
        rw [hline]
        exact nextClient_poll (by rw [show (s.line n).polls = r :: rest from hq]; exact nofun) hpointer
      have hqueue : ((idled s n).line n).polls = r :: rest := by rw [hline]; exact hq
      rw [grant_idle hidle hnext, grantTo_poll hqueue, hline] at hrun
      obtain ⟨hsent, -, hother, -⟩ := beginExchange_sent (idled s n) n
        { { s.line n with engine := .idle } with polls := rest } .poll (.poll r) ((idled s n).entry r.entry).node
      exact ⟨_, hrun, hsent, hother rfl⟩

end Sys2Proof.Gap
end

section
/-! Debounced losses and restores over the entries of a line (R123 to R129, R167). -/

namespace Sys2Proof.Outages

open Sys2Proof Sys2Proof.Machine Sys2Proof.Machine.Safety Sys2Proof.Laws Sys2Proof.Walks Sys2Proof.DeviceLaws
  Sys2Proof.LineOrder Sys2Proof.EntryOrder Sys2Proof.SchedulingPass Sys2Proof.LineService Sys2Proof.Captures
  Sys2Proof.Verdicts Sys2Proof.ReportsAndStops Sys2Proof.ExchangeEnds Sys2Proof.OwnEntry

/-! ### A walk over the map, seen from one entry -/

/-- What the steps for the others keep holds before and behind the own step of one in a list. -/
theorem foldl_at {α : Type} {R : State → State → Prop} (refl : ∀ s, R s s) (trans : ∀ {s t u}, R s t → R t u → R s u)
    {f : State → α → State} {i : α} (h : ∀ s j, j ≠ i → R s (f s j)) {l : List α} (hl : l.Nodup) (hi : i ∈ l)
    (s : State) : ∃ a, R s a ∧ R (f a i) (l.foldl f s) := by
  have hwalk (l : List α) (hl : i ∉ l) (t : State) : R t (l.foldl f t) := by
    induction l generalizing t with
    | nil => exact refl t
    | cons j l ih =>
      obtain ⟨hj, hrest⟩ := not_or.mp (mt List.mem_cons.mpr hl)
      exact trans (h t j (Ne.symm hj)) (ih hrest (f t j))
  obtain ⟨pre, post, rfl⟩ := List.append_of_mem hi
  rw [List.nodup_append, List.nodup_cons] at hl
  obtain ⟨-, ⟨hpost, -⟩, hdisjoint⟩ := hl
  have hpre : i ∉ pre := fun hmem => hdisjoint i hmem i (List.mem_cons_self ..) rfl
  refine ⟨_, hwalk pre hpre s, ?_⟩
  rw [List.foldl_append, List.foldl_cons]
  exact hwalk post hpost _

theorem forEntries_at {R : State → State → Prop} (refl : ∀ s, R s s) (trans : ∀ {s t u}, R s t → R t u → R s u)
    {f : EntryId → State → State} {i : EntryId} (h : ∀ j s, j ≠ i → R s (f j s)) (s : State) :
    ∃ a, R s a ∧ R (f i a) (forEntries f s) :=
  foldl_at (f := fun t j => f j t) refl trans (fun t j => h j t) (List.nodup_finRange 240) (List.mem_finRange i) s

theorem forLines_at {R : State → State → Prop} (refl : ∀ s, R s s) (trans : ∀ {s t u}, R s t → R t u → R s u)
    {f : LineId → State → State} {n : LineId} (h : ∀ m s, m ≠ n → R s (f m s)) (s : State) :
    ∃ a, R s a ∧ R (f n a) (forLines f s) :=
  foldl_at (f := fun t m => f m t) refl trans (fun t m => h m t) (List.nodup_finRange 6) (List.mem_finRange n) s

/-! ### The restore (R127, R129) -/

/-- The entries alone differ. -/
def EntriesOnly (s t : State) : Prop := t = { s with entries := t.entries }

theorem EntriesOnly.refl (s : State) : EntriesOnly s s := rfl

theorem EntriesOnly.trans {s t u : State} (h : EntriesOnly s t) (k : EntriesOnly t u) : EntriesOnly s u := by
  unfold EntriesOnly at *
  rw [k, h]

/-- The entries alone differ, and one entry does not. -/
def OthersOnly (i : EntryId) (s t : State) : Prop := EntriesOnly s t ∧ t.entry i = s.entry i

theorem OthersOnly.refl (i : EntryId) (s : State) : OthersOnly i s s := ⟨.refl s, rfl⟩

theorem OthersOnly.trans {i : EntryId} {s t u : State} (h : OthersOnly i s t) (k : OthersOnly i t u) :
    OthersOnly i s u := ⟨h.1.trans k.1, k.2.trans h.2⟩

theorem restoreEntry_entriesOnly (n : LineId) (x : Nat) (j : EntryId) (s : State) :
    EntriesOnly s (s.restoreEntry n x j) := by
  unfold State.restoreEntry
  dsimp only
  split
  · rfl
  · rfl

theorem restoreEntry_others (n : LineId) (x : Nat) {i j : EntryId} (h : j ≠ i) (s : State) :
    OthersOnly i s (s.restoreEntry n x j) := by
  refine ⟨restoreEntry_entriesOnly n x j s, ?_⟩
  unfold State.restoreEntry
  dsimp only
  split
  · rw [setEntry_entry, if_neg h]
  · rfl

/-- An entry as the restore leaves it. -/
def restored (s : State) (n : LineId) (x : Nat) (e : Entry) : Entry :=
  if e.inUse && e.line == n then
    e.afterOutage (divUp ((s.group e.group).rechargeHours * 60 * min x e.rated) e.rated) else e

theorem restoreEntry_self (n : LineId) (x : Nat) (i : EntryId) (s : State) :
    (s.restoreEntry n x i).entry i = restored s n x (s.entry i) := by
  unfold State.restoreEntry restored
  dsimp only
  split
  · rw [setEntry_entry_self]
    rfl
  · rfl

theorem restored_congr {s t : State} (h : EntriesOnly s t) (n : LineId) (x : Nat) (e : Entry) :
    restored t n x e = restored s n x e := by
  unfold restored State.group
  rw [h]

theorem restoreEntries_rules (s : State) (n : LineId) (x : Nat) :
    EntriesOnly s (forEntries (State.restoreEntry n x) s) ∧
      ∀ i, (forEntries (State.restoreEntry n x) s).entry i = restored s n x (s.entry i) := by
  refine ⟨?_, fun i => ?_⟩
  · exact foldl_walk EntriesOnly.refl EntriesOnly.trans (fun t j => restoreEntry_entriesOnly n x j t) _ s
  · obtain ⟨a, ⟨hbefore, hi⟩, -, hbehind⟩ := forEntries_at (OthersOnly.refl i) OthersOnly.trans
      (fun j t hj => restoreEntry_others n x hj t) s
    rw [hbehind, restoreEntry_self, hi, restored_congr hbefore]

theorem afterOutage_faulted {e : Entry} {need : Nat} (h : e.state = .faulted ∨ e.state.underTest = true) :
    e.afterOutage need = e := by
  unfold Entry.afterOutage
  split
  · next hs => simp [hs, EntryState.underTest] at h
  · next hs => simp [hs, EntryState.underTest] at h
  · next hs => simp [hs, EntryState.underTest] at h
  all_goals rfl

theorem afterOutage_ready {e : Entry} {need : Nat} (h : e.state = .ready) :
    e.afterOutage need = { e with state := if need = 0 then .ready else .recharging need } := by
  unfold Entry.afterOutage
  rw [h]
  dsimp only
  split
  · rw [← h]
  · rfl

theorem afterOutage_recharging {e : Entry} {need left : Nat} (h : e.state = .recharging left) :
    e.afterOutage need = { e with state := .recharging (max left need) } := by
  unfold Entry.afterOutage
  rw [h]

theorem afterOutage_backoff {e : Entry} {need left : Nat} (h : e.state = .backoff left) :
    e.afterOutage need = if need = 0 then e else { e with state := .recharging need, attempts := 0 } := by
  unfold Entry.afterOutage
  rw [h]

/-- Settles O30: the line, the flag, and the table of R127. -/
theorem debouncedRestore : Obligations.DebouncedRestore := by
  intro s n k hsense x
  have hpending : (s.mainsLine n).sense.isRestorePending = true := by rw [hsense]; rfl
  obtain ⟨b, hb⟩ : ∃ b : State, s.setMains n { s.mainsLine n with
    sense := .present, holdOff := s.settings.holdOff } = b := ⟨_, rfl⟩
  obtain ⟨honly, hentries⟩ := restoreEntries_rules b n x
  generalize hc : forEntries (State.restoreEntry n x) b = c at honly hentries
  have hrun : exec (.debouncedRestore n) s = .next (c.raise .outageEnd) := by
    have hexec : exec (.debouncedRestore n) s = .next (s.debouncedRestore n) := rfl
    rw [hexec, ← hc, ← hb]
    exact congrArg Host.Outcome.next (if_pos hpending)
  have hflags := raise_onlyFlags c .outageEnd
  have hmains (m : LineId) : (c.raise .outageEnd).mainsLine m = b.mainsLine m := by
    unfold State.mainsLine
    rw [hflags, honly]
  refine ⟨_, hrun, ?_, fun m hm => ?_, ?_, raise_flag_self c .outageEnd, ?_, fun i => ?_⟩
  · rw [hmains, ← hb, setMains_mainsLine_self]
  · rw [hmains, ← hb, setMains_mainsLine, if_neg hm.symm]
  · rw [hflags, honly, ← hb]
    rfl
  · have hcs : c = { s with mains := c.mains, entries := c.entries } := by
      rw [honly, ← hb]
      rfl
    unfold OnlyFlagsDiffer at hflags ⊢
    rw [hflags, hcs]
  · have hi : (c.raise .outageEnd).entry i = restored s n x (s.entry i) := by
      rw [raise_entry, hentries, ← hb]
      rfl
    dsimp only
    rw [hi]
    unfold restored
    generalize s.entry i = e
    refine ⟨fun h => if_neg ?_, fun hin hline => ?_⟩
    · rcases h with h | h
      · simp [h]
      · simp [h]
    · rw [if_pos (by simp [hin, hline])]
      refine ⟨fun h => ?_, fun left h => ?_, fun left h => ?_, fun h => afterOutage_faulted h⟩
      · rw [afterOutage_ready h]
      · rw [afterOutage_recharging h]
      · rw [afterOutage_backoff h]

end Sys2Proof.Outages
end

section
/-! A debounced loss: the line in outage, the tests it ends, the starts it takes back (R123 to R125, R167). -/

namespace Sys2Proof.Losses

open Sys2Proof Sys2Proof.Machine Sys2Proof.Machine.Safety Sys2Proof.Laws Sys2Proof.Walks Sys2Proof.DeviceLaws
  Sys2Proof.LineOrder Sys2Proof.EntryOrder Sys2Proof.SchedulingPass Sys2Proof.LineService Sys2Proof.Captures
  Sys2Proof.Verdicts Sys2Proof.ReportsAndStops Sys2Proof.ExchangeEnds Sys2Proof.OwnEntry Sys2Proof.Outages

/-! ### A recorded start that waits (R167) -/

section Recorded

variable (record : CaptureRecord) (mark : Nat) (n : LineId) (i : EntryId)

/-- The capture is OPEN for a start of the entry that waits on the line. -/
def StartWaits (s : State) : Prop := s.capture.state = .opened record mark ∧
  ∃ c ∈ (s.line n).control, c.kind ≠ .stopTest ∧ c.entry = i ∧ c.mark = some mark

/-- The capture completed WITHDRAWN. -/
def Withdrawn (s : State) : Prop :=
  s.capture.state = .idle (some { record with answer := some .withdrawn }) ∧ s.flag .captureHit = true

/-- The recorded start waits on, or the capture is completed; a completed one stays so. -/
def Leads (s t : State) : Prop :=
  (StartWaits record mark n i s → StartWaits record mark n i t ∨ Withdrawn record t) ∧
    (Withdrawn record s → Withdrawn record t)

variable {record mark n i}

theorem leads_of_eq {s t : State} (hc : t.capture = s.capture) (hf : FlagsStay s t)
    (hl : (t.line n).control = (s.line n).control) : Leads record mark n i s t := by
  refine ⟨fun ⟨hopened, hwaits⟩ => .inl ⟨by rw [hc]; exact hopened, by rw [hl]; exact hwaits⟩, fun ⟨hidle, hhit⟩ => ?_⟩
  exact ⟨by rw [hc]; exact hidle, hf _ hhit⟩

/-- A removal whose requests are answered WITHDRAWN, seen from the recorded start. -/
theorem leads_removal {s : State} {m : LineId} {l : LineEngine} {marks : List (Option Nat × EntryId)}
    (hl : (∃ r ∈ marks, r.1 = some mark) ∨
      ((s.setLine m l).line n).control = (s.line n).control ∨
        ∀ c ∈ (s.line n).control, c.mark = some mark → c ∈ ((s.setLine m l).line n).control) :
    Leads record mark n i s ((s.setLine m l).captureEndAll marks .withdrawn) := by
  refine ⟨fun ⟨hopened, c, hc, hkind, hentry, hmark⟩ => ?_, fun ⟨hidle, hhit⟩ => ?_⟩
  · by_cases hm : ∃ r ∈ marks, r.1 = some mark
    · obtain ⟨r, -, -, heq⟩ := captureEndAll_recorded (s := s.setLine m l) hopened hm .withdrawn
      rw [heq]
      obtain ⟨hdone, hhit, -⟩ := captureEnd_completed (s := s.setLine m l) hopened r.2 .withdrawn
      exact .inr ⟨hdone, hhit⟩
    · have hother : (s.setLine m l).captureEndAll marks .withdrawn = s.setLine m l :=
        captureEndAll_other (fun r hr => by
          rw [← Bool.not_eq_true, recorded_opened (s := s.setLine m l) hopened]
          exact fun h => hm ⟨r, hr, h⟩) _
      rw [hother]
      refine .inl ⟨hopened, c, ?_, hkind, hentry, hmark⟩
      rcases hl.resolve_left hm with hsame | hstays
      · rw [hsame]; exact hc
      · exact hstays c hc hmark
  · have hother : (s.setLine m l).captureEndAll marks .withdrawn = s.setLine m l :=
      captureEndAll_other (fun r _ => recorded_idle (s := s.setLine m l) hidle r.1) _
    rw [hother]
    exact ⟨hidle, hhit⟩

theorem setLine_control {s : State} {m : LineId} {l : LineEngine} (h : l.control = (s.line m).control) (n : LineId) :
    ((s.setLine m l).line n).control = (s.line n).control := by
  rw [setLine_line]
  split
  · next hmn => rw [h, hmn]
  · rfl

theorem leads_removeControl (s : State) (m : LineId) (p : ControlRequest → Bool) :
    Leads record mark n i s (s.removeControl m p .withdrawn) := by
  refine leads_removal ?_
  by_cases hc : m = n ∧ ∃ c ∈ (s.line m).control, p c = true ∧ c.mark = some mark
  · obtain ⟨-, c, hc, hp, hmark⟩ := hc
    exact .inl ⟨_, mem_controlMarks.mpr ⟨c, hc, hp, rfl⟩, hmark⟩
  · refine .inr (.inr fun c hcmem hmark => ?_)
    rw [setLine_line]
    split
    · next hmn =>
      subst hmn
      refine List.mem_filter.mpr ⟨hcmem, ?_⟩
      rw [Bool.not_eq_true', ← Bool.not_eq_true]
      exact fun hp => hc ⟨rfl, c, hcmem, hp, hmark⟩
    · exact hcmem

theorem leads_joinPoll (s : State) (j : EntryId) : Leads record mark n i s (s.joinPoll j) := by
  have hcontrol : ((s.joinPoll j).line n).control = (s.line n).control := by
    by_cases hw : (s.line (s.entry j).line).polls.any (fun p => p.entry == j) = true
    · rw [joinPoll_waiting hw]
    · by_cases hn : n = (s.entry j).line
      · rw [hn, joinPoll_line (Bool.not_eq_true _ ▸ hw)]
      · rw [(onlyLine_joinPoll s j).others n hn]
  have hflags := flagsStay_of_eq (quiet_joinPoll s j).flags
  have hlead (hwatch : s.capture.state ≠ .watching) : Leads record mark n i s (s.joinPoll j) :=
    leads_of_eq (captureFixed_joinPoll s j hwatch) hflags hcontrol
  refine ⟨fun h => ?_, fun h => ?_⟩
  · obtain ⟨hwaits, -⟩ := hlead (by rw [h.1]; exact fun h => nomatch h)
    exact hwaits h
  · obtain ⟨-, hdone⟩ := hlead (by rw [h.1]; exact fun h => nomatch h)
    exact hdone h

theorem leads_testWork : TestWork (Leads record mark n i) where
  refl := fun s => leads_of_eq rfl (.refl s) rfl
  trans := fun h k => ⟨fun hs => (h.1 hs).elim k.1 fun hd => .inr (k.2 hd), fun hd => k.2 (h.2 hd)⟩
  setEntry := fun s j e => leads_of_eq rfl (.refl _) rfl
  raise := fun s f => leads_of_eq (raise_capture s f) (flagsStay_raise s f) (by rw [raise_line])
  joinPoll := leads_joinPoll
  withdrawPoll := fun s j => leads_removal (.inr (.inl (setLine_control (by rfl) n)))
  removeControl := leads_removeControl

end Recorded

/-! ### One entry at a loss (R124, R125) -/

section Entry

variable {s : State} {n : LineId} {i : EntryId} {u : CurrentTest}

theorem lossEntry_elsewhere (h : (s.entry i).inUse = false ∨ (s.entry i).line ≠ n) : s.lossEntry n i = s := by
  unfold State.lossEntry
  refine if_neg ?_
  rcases h with h | h
  · simp [h]
  · simp [h]

theorem lossEntry_at (hin : (s.entry i).inUse = true) (hline : (s.entry i).line = n) : s.lossEntry n i =
    match (s.entry i).state with
    | .pending t =>
      if t.startSent then s.recordVerdict i .abortedOutage 0
      else
        match t.origin with
        | .scheduler => s.takeBackAtLoss n i
        | .headend => s
    | .testing t => s.recordVerdict i .abortedOutage t.elapsedAtLoss
    | .ending t => s.recordVerdict i .abortedOutage t.elapsedAtLoss
    | .ready => s
    | .recharging _ => s
    | .backoff _ => s
    | .faulted => s := by
  unfold State.lossEntry
  exact (if_pos (by simp [hin, hline])).trans (by rfl)

theorem lossEntry_untested (htest : (s.entry i).state.test = none) : s.lossEntry n i = s := by
  unfold State.lossEntry
  split
  · split
    · next hs => rw [hs] at htest; cases htest
    · next hs => rw [hs] at htest; cases htest
    · next hs => rw [hs] at htest; cases htest
    all_goals rfl
  · rfl

theorem takeBackAtLoss_entry (s : State) (n : LineId) (i : EntryId) : ∃ held, (s.takeBackAtLoss n i).entry i =
    { s.entry i with state := .ready, lastBlock := some .outage, held := held } := by
  unfold State.takeBackAtLoss
  rw [takeBack_entry_self]
  rcases holds_removeControl s n (ControlRequest.isStartFor i) .withdrawn i with h | ⟨-, h⟩
  · exact ⟨_, by rw [h]⟩
  · exact ⟨true, by rw [h]⟩

/-- No step of the loss touches another entry, but for a hold by the capture. -/
theorem lossEntry_others {j : EntryId} (h : j ≠ i) (s : State) : HeldAs (s.entry i) ((s.lossEntry n j).entry i) := by
  have hverdict {u : CurrentTest} (htest : (s.entry j).state.test = some u) (e : Nat) :
      HeldAs (s.entry i) ((s.recordVerdict j .abortedOutage e).entry i) := by
    obtain ⟨-, hothers⟩ := recordVerdict_entries htest .abortedOutage e
    exact hothers i (Ne.symm h)
  unfold State.lossEntry
  split
  · split
    · next u hs =>
      split
      · exact hverdict (by rw [hs]; rfl) 0
      · split
        · unfold State.takeBackAtLoss
          rw [takeBack_entry, if_neg h]
          exact holds_removeControl s n _ _ i
        · exact .inl rfl
    · next u hs => exact hverdict (by rw [hs]; rfl) _
    · next u hs => exact hverdict (by rw [hs]; rfl) _
    all_goals exact .inl rfl
  · exact .inl rfl

theorem onlyLine_lossEntry (n : LineId) (j : EntryId) (s : State) : OnlyLine n s (s.lossEntry n j) := by
  unfold State.lossEntry
  split
  · next h =>
    obtain ⟨-, hline⟩ : (s.entry j).inUse = true ∧ (s.entry j).line = n := by simpa using h
    have hverdict (e : Nat) : OnlyLine n s (s.recordVerdict j .abortedOutage e) := by
      rw [← hline]
      exact onlyLine_recordVerdict s j _ e
    split
    · split
      · exact hverdict 0
      · split
        · exact (onlyLine_removeControl s n _ _).trans (onlyLine_setEntry n _ j _)
        · exact .refl n s
    · exact hverdict _
    · exact hverdict _
    all_goals exact .refl n s
  · exact .refl n s

end Entry

/-! ### The loss (R123) -/

theorem heldAs_trans {e e' e'' : Entry} (h : HeldAs e e') (k : HeldAs e' e'') : HeldAs e e'' := by
  rcases h with rfl | ⟨hin, rfl⟩
  · exact k
  · rcases k with rfl | ⟨-, rfl⟩
    · exact .inr ⟨hin, rfl⟩
    · exact .inr ⟨hin, rfl⟩

theorem heldAs_eq {e e' : Entry} (h : HeldAs e e') : ∃ held, e' = { e with held := held } := by
  rcases h with rfl | ⟨-, rfl⟩
  · exact ⟨_, rfl⟩
  · exact ⟨true, rfl⟩

section Loss

variable {s : State} {n : LineId}

/-- The loss but for its flag and the service of the line. -/
def lossTaken (s : State) (n : LineId) : State := forEntries (State.lossEntry n) (s.setMains n .atLoss)

theorem exec_debouncedLoss {k : Nat} (h : (s.mainsLine n).sense = .lossPending k) :
    exec (.debouncedLoss n) s = .next (((lossTaken s n).raise .outageStart).settleLine n) := by
  have hexec : exec (.debouncedLoss n) s = .next (s.debouncedLoss n) := rfl
  rw [hexec]
  exact congrArg Host.Outcome.next (if_pos (by rw [h]; rfl))

theorem lossTaken_frame (s : State) (n : LineId) :
    Kept (s.setMains n .atLoss) (lossTaken s n) ∧ OnlyLine n s (lossTaken s n) := by
  have hmains : OnlyLine n s (s.setMains n .atLoss) := onlyLine_of_eq rfl rfl
  exact ⟨kept_forEntries _ (kept_lossEntry n) _,
    hmains.trans (foldl_walk (OnlyLine.refl n) OnlyLine.trans (fun t j => onlyLine_lossEntry n j t) _ _)⟩

/-- An entry's own step at a loss, among the holds of the others. -/
theorem lossTaken_at (s : State) (n : LineId) (i : EntryId) : ∃ a, Kept (s.setMains n .atLoss) a ∧
    HeldAs (s.entry i) (a.entry i) ∧ HeldAs ((a.lossEntry n i).entry i) ((lossTaken s n).entry i) := by
  obtain ⟨a, ⟨hkept, hbefore⟩, -, hbehind⟩ := forEntries_at (i := i) (f := State.lossEntry n)
    (R := fun s t => Kept s t ∧ HeldAs (s.entry i) (t.entry i)) (fun s => ⟨.refl s, .inl rfl⟩)
    (fun h k => ⟨h.1.trans k.1, heldAs_trans h.2 k.2⟩)
    (fun j t hj => ⟨kept_lossEntry n j t, lossEntry_others hj t⟩) (s.setMains n .atLoss)
  exact ⟨a, hkept, hbefore, hbehind⟩

/-- The state the loss ends in. -/
def lossSettled (s : State) (n : LineId) : State := ((lossTaken s n).raise .outageStart).settleLine n

theorem lossSettled_starts (s : State) (n : LineId) : StartsOnly (lossTaken s n) (lossSettled s n) :=
  (startsOnly_of_eq (raise_entries _ _)).trans (startsOnly_settleLine _ _)

variable {i : EntryId} {u : CurrentTest}

/-- Where the loss does nothing to an entry, its course goes on. -/
theorem loss_left (h : ∀ a, Kept (s.setMains n .atLoss) a → HeldAs (s.entry i) (a.entry i) → a.lossEntry n i = a) :
    ((lossSettled s n).entry i).lastVerdict = (s.entry i).lastVerdict ∧
      ((∀ u, (s.entry i).state ≠ .pending u) → ((lossSettled s n).entry i).state = (s.entry i).state) ∧
      ∀ u, (s.entry i).state = .pending u →
        ∃ b, ((lossSettled s n).entry i).state = .pending { u with startSent := b } := by
  obtain ⟨a, hkept, hbefore, hbehind⟩ := lossTaken_at s n i
  rw [h a hkept hbefore] at hbehind
  obtain ⟨held, hentry⟩ := heldAs_eq (heldAs_trans hbefore hbehind)
  rcases lossSettled_starts s n i with he | ⟨v, hv, he⟩
  · rw [he, hentry]
    exact ⟨rfl, fun _ => rfl, fun u hu => ⟨u.startSent, hu⟩⟩
  · rw [hentry] at hv
    rw [he, hentry]
    refine ⟨rfl, fun hp => absurd hv (hp v), fun u hu => ⟨true, ?_⟩⟩
    rw [EntryState.pending.inj (hu.symm.trans hv)]

/-- A test under way ends ABORTED_OUTAGE. -/
theorem loss_ends (htest : (s.entry i).state.test = some u) {e : Nat}
    (hstep : ∀ a : State, a.entry i = { s.entry i with held := (a.entry i).held } →
      a.lossEntry n i = a.recordVerdict i .abortedOutage e) :
    ((lossSettled s n).entry i).lastVerdict = some (.abortedOutage, u.kind) ∧
      ((lossSettled s n).entry i).state = afterVerdict s i u.kind .abortedOutage e := by
  obtain ⟨a, hkept, hbefore, hbehind⟩ := lossTaken_at s n i
  obtain ⟨held, hentry⟩ := heldAs_eq hbefore
  rw [hstep a (by rw [hentry])] at hbehind
  obtain ⟨hlast, hstate⟩ := recordVerdict_given (s := a) (i := i) (u := u) (by rw [hentry]; exact htest) .abortedOutage e
  have hafter : afterVerdict a i u.kind .abortedOutage e = afterVerdict s i u.kind .abortedOutage e :=
    afterVerdict_of_kept hkept i u.kind .abortedOutage e
  obtain ⟨held', hentry'⟩ := heldAs_eq hbehind
  rw [hafter] at hstate
  have hsame : (lossSettled s n).entry i = (lossTaken s n).entry i := by
    refine (lossSettled_starts s n).same i fun v hv => ?_
    rw [hentry', hstate] at hv
    exact afterVerdict_ne_pending _ _ _ _ _ _ hv
  rw [hsame, hentry']
  exact ⟨hlast, hstate⟩

/-- An unsent scheduler start is taken back (R124). -/
theorem loss_takesBack (hin : (s.entry i).inUse = true) (hline : (s.entry i).line = n)
    (hu : (s.entry i).state = .pending u) (hsent : u.startSent = false) (horigin : u.origin = .scheduler) :
    ((lossSettled s n).entry i).state = .ready ∧ ((lossSettled s n).entry i).lastBlock = some .outage ∧
      ((lossSettled s n).entry i).lastVerdict = (s.entry i).lastVerdict := by
  obtain ⟨a, hkept, hbefore, hbehind⟩ := lossTaken_at s n i
  obtain ⟨held, hentry⟩ := heldAs_eq hbefore
  have hstep : a.lossEntry n i = a.takeBackAtLoss n i := by
    rw [lossEntry_at (by rw [hentry]; exact hin) (by rw [hentry]; exact hline), hentry]
    dsimp only
    rw [hu]
    dsimp only
    rw [hsent, horigin]
    rfl
  obtain ⟨held', htaken⟩ := takeBackAtLoss_entry a n i
  rw [hstep] at hbehind
  obtain ⟨held'', hentry'⟩ := heldAs_eq hbehind
  rw [htaken, hentry] at hentry'
  have hsame : (lossSettled s n).entry i = (lossTaken s n).entry i := by
    refine (lossSettled_starts s n).same i fun v hv => ?_
    rw [hentry'] at hv
    cases hv
  rw [hsame, hentry']
  exact ⟨rfl, rfl, rfl⟩

/-- The recorded start of a taken-back entry completes the capture (R167). -/
theorem loss_withdraws {record : CaptureRecord} {mark : Nat} (hin : (s.entry i).inUse = true)
    (hline : (s.entry i).line = n) (hu : (s.entry i).state = .pending u) (hsent : u.startSent = false)
    (horigin : u.origin = .scheduler) (hwaits : StartWaits record mark n i s) :
    Withdrawn record (lossSettled s n) := by
  obtain ⟨a, ⟨hkept, hbefore, hlead⟩, -, -, hlead'⟩ := forEntries_at (i := i) (f := State.lossEntry n)
    (R := fun s t => Kept s t ∧ HeldAs (s.entry i) (t.entry i) ∧ Leads record mark n i s t)
    (fun s => ⟨.refl s, .inl rfl, leads_testWork.refl s⟩)
    (fun h k => ⟨h.1.trans k.1, heldAs_trans h.2.1 k.2.1, leads_testWork.trans h.2.2 k.2.2⟩)
    (fun j t hj => ⟨kept_lossEntry n j t, lossEntry_others hj t, leads_testWork.lossEntry n j t⟩) (s.setMains n .atLoss)
  obtain ⟨held, hentry⟩ := heldAs_eq hbefore
  have hstep : a.lossEntry n i = a.takeBackAtLoss n i := by
    rw [lossEntry_at (by rw [hentry]; exact hin) (by rw [hentry]; exact hline), hentry]
    dsimp only
    rw [show (s.setMains n .atLoss).entry i = s.entry i from rfl, hu]
    dsimp only
    rw [hsent, horigin]
    rfl
  have hown : Withdrawn record (a.lossEntry n i) := by
    rcases hlead.1 hwaits with ⟨hopened, c, hc, hkind, hci, hmark⟩ | hdone
    · have hremoved :
          CaptureCompleted a (a.removeControl n (ControlRequest.isStartFor i) .withdrawn) record i .withdrawn := by
        refine removeControl_completed hopened ⟨c, hc, ?_, hmark⟩ (fun d hd => ?_) .withdrawn
        · cases hk : c.kind with
          | stopTest => exact absurd hk hkind
          | _ => simp [ControlRequest.isStartFor, hk, ControlKind.isStart, hci]
        · simp only [ControlRequest.isStartFor, Bool.and_eq_true, beq_iff_eq] at hd
          exact hd.2
      obtain ⟨hidle, hhit, -⟩ := hremoved
      rw [hstep]
      exact ⟨hidle, hhit⟩
    · obtain ⟨-, hstays⟩ := (leads_testWork (record := record) (mark := mark) (n := n) (i := i)).lossEntry n i a
      exact hstays hdone
  obtain ⟨-, hraised⟩ :=
    (leads_testWork (record := record) (mark := mark) (n := n) (i := i)).raise (lossTaken s n) .outageStart
  obtain ⟨hidle, hhit⟩ := hraised (hlead'.2 hown)
  refine ⟨?_, ?_⟩
  · rw [lossSettled, settleLine_capture (by rw [hidle]; exact fun h => nomatch h), hidle]
  · rw [lossSettled, flag_congr (quiet_lineWork.settleLine _ _).flags, hhit]

end Loss

/-- A test of no elapsed minutes leaves no recharge. -/
theorem noRecharge_at_start (r d : Nat) (k : Kind) : verdictRecharge r d 0 k .abortedOutage = 0 := by
  cases k with
  | function => rfl
  | duration =>
    change divUp (r * min 0 d) d = 0
    rw [Nat.zero_min, Nat.mul_zero, divUp]
    cases d with
    | zero => rfl
    | succ d => exact Nat.div_eq_of_lt (by omega)

/-- Settles O29: the frame of the loss, the capture, and the table of R124. -/
theorem debouncedLoss : Obligations.DebouncedLoss := by
  intro s n k hsense
  obtain ⟨hkept, honly⟩ := lossTaken_frame s n
  have hquiet := quiet_lineWork.settleLine ((lossTaken s n).raise .outageStart) n
  have hmains : (lossSettled s n).mains = (s.setMains n .atLoss).mains :=
    (kept_settleLine _ _).mains.trans ((kept_raise _ _).mains.trans hkept.mains)
  have hmainsLine (m : LineId) : (lossSettled s n).mainsLine m = (s.setMains n .atLoss).mainsLine m := by
    unfold State.mainsLine
    rw [hmains]
  have honly' : OnlyLine n s (lossSettled s n) :=
    (honly.trans (onlyLine_raise n _ _)).trans (onlyLine_settleLine _ n)
  refine ⟨lossSettled s n, exec_debouncedLoss hsense, ?_, fun m hm => ⟨?_, honly'.others m hm⟩, ?_,
    fun record mark i u hopened hin hline hu hsent horigin hwaits =>
      loss_withdraws hin hline hu hsent horigin ⟨hopened, hwaits⟩, fun i => ?_⟩
  · rw [hmainsLine, setMains_mainsLine_self]
    rfl
  · rw [hmainsLine, setMains_mainsLine, if_neg hm.symm]
  · exact (flag_congr hquiet.flags _).trans (raise_flag_self _ _)
  · have hfrees : s.halts .abortedOutage = s.policy[6] := rfl
    have hat {a : State} (h : a.entry i = { s.entry i with held := (a.entry i).held })
        (hin : (s.entry i).inUse = true) (hline : (s.entry i).line = n) :
        (a.entry i).inUse = true ∧ (a.entry i).line = n ∧ (a.entry i).state = (s.entry i).state := by
      rw [h]
      exact ⟨hin, hline, rfl⟩
    refine ⟨fun h => loss_left fun a _ hheld => ?_, fun hin hline => ⟨fun u hu => ?_, fun u hu hsent => ?_,
      fun u hu hsent horigin => loss_takesBack hin hline hu hsent horigin, fun u hu hsent horigin => ?_,
      fun htest => ?_⟩⟩
    · obtain ⟨held, hentry⟩ := heldAs_eq hheld
      refine lossEntry_elsewhere ?_
      rw [hentry]
      exact h
    · obtain ⟨hlast, hstate⟩ := loss_ends (s := s) (n := n) (i := i) (u := u) (e := u.elapsedAtLoss)
        (by rcases hu with h | h <;> rw [h] <;> rfl) fun a ha => by
          obtain ⟨hain, haline, hastate⟩ := hat ha hin hline
          rw [lossEntry_at hain haline, hastate]
          rcases hu with h | h <;> rw [h]
      refine ⟨hlast, fun hp => ?_, fun hp => ?_⟩
      · rw [hstate, afterVerdict_halted (hfrees.trans hp)]
      · rw [hstate, afterVerdict_free (hfrees.trans hp)]
        rfl
    · obtain ⟨hlast, hstate⟩ := loss_ends (s := s) (n := n) (i := i) (u := u) (e := 0) (by rw [hu]; rfl) fun a ha => by
        obtain ⟨hain, haline, hastate⟩ := hat ha hin hline
        rw [lossEntry_at hain haline, hastate, hu]
        exact if_pos hsent
      refine ⟨hlast, fun hp => ?_⟩
      rw [hstate, afterVerdict_free (hfrees.trans hp)]
      exact if_pos (noRecharge_at_start _ _ u.kind)
    · obtain ⟨-, -, hpending⟩ := loss_left (s := s) (n := n) (i := i) fun a _ hheld => by
        obtain ⟨held, hentry⟩ := heldAs_eq hheld
        obtain ⟨hain, haline, hastate⟩ := hat (a := a) (by rw [hentry]) hin hline
        rw [lossEntry_at hain haline, hastate, hu]
        dsimp only
        rw [hsent, horigin]
        rfl
      exact hpending u hu
    · obtain ⟨hlast, hstate, -⟩ := loss_left (s := s) (n := n) (i := i) fun a _ hheld => by
        obtain ⟨held, hentry⟩ := heldAs_eq hheld
        exact lossEntry_untested (by rw [hentry]; exact htest)
      refine ⟨hstate fun u hu => ?_, hlast⟩
      rw [hu] at htest
      cases htest

end Sys2Proof.Losses
end

section
/-! LINE_RESET and BRIDGE_RESET (R22, R90, R149, R150, R154 to R156, R163, R166, R167, R176, R186). -/

namespace Sys2Proof.Resets

open Sys2Proof Sys2Proof.Machine Sys2Proof.Machine.Safety Sys2Proof.Laws Sys2Proof.Walks Sys2Proof.DeviceLaws
  Sys2Proof.LineOrder Sys2Proof.EntryOrder Sys2Proof.SchedulingPass Sys2Proof.LineService Sys2Proof.Captures
  Sys2Proof.Verdicts Sys2Proof.ReportsAndStops Sys2Proof.ExchangeEnds Sys2Proof.OwnEntry Sys2Proof.Outages
  Sys2Proof.Losses

/-! ### One entry (R22) -/

theorem isDown_eq_decide (g : Engine) : g.isDown = decide (g = .down) := by
  cases g <;> rfl

section Entry

variable {e : Entry} {u : CurrentTest} {recharge : Nat}

theorem afterReset_untested (h : e.state.test = none) : e.afterReset recharge = e := by
  unfold Entry.afterReset
  split
  · next hs => rw [hs] at h; cases h
  · next hs => rw [hs] at h; cases h
  · next hs => rw [hs] at h; cases h
  all_goals rfl

theorem afterReset_unsent (h : e.state = .pending u) (hsent : u.startSent = false) :
    e.afterReset recharge = { e with state := .ready, lastBlock := some .aborted } := by
  unfold Entry.afterReset
  rw [h]
  exact if_neg (by rw [hsent]; exact Bool.false_ne_true)

theorem afterReset_running (h : (e.state = .pending u ∧ u.startSent = true) ∨ e.state = .testing u ∨
    e.state = .ending u) :
    e.afterReset recharge = { e with state := if u.kind = .duration then .recharging recharge else .ready } := by
  unfold Entry.afterReset
  rcases h with ⟨h, hsent⟩ | h | h
  · rw [h]
    exact if_pos hsent
  · rw [h]
  · rw [h]

end Entry

/-! ### The entries (R22) -/

section EntriesOnly

variable {s t : State}

theorem entriesOnly_lines (h : EntriesOnly s t) : t.lines = s.lines := by rw [h]

theorem entriesOnly_tx (h : EntriesOnly s t) : t.tx = s.tx := by rw [h]

theorem entriesOnly_capture (h : EntriesOnly s t) : t.capture = s.capture := by rw [h]

theorem entriesOnly_flags (h : EntriesOnly s t) : t.flags = s.flags := by rw [h]

theorem answered_lines {who : Requester} {request : Nat} {code : MgmtCode} {fields : List Byte}
    (h : Answered s t who request code fields) : t.lines = s.lines := by rw [h.1]

/-- An answer changes no other block. -/
theorem answered_rest {who : Requester} {request : Nat} {code : MgmtCode} {fields : List Byte}
    (h : Answered s t who request code fields) :
    t.mains = s.mains ∧ t.plan = s.plan ∧ t.capture = s.capture ∧ t.flags = s.flags := by
  rw [h.1]
  exact ⟨rfl, rfl, rfl, rfl⟩

theorem answered_entries {who : Requester} {request : Nat} {code : MgmtCode} {fields : List Byte}
    (h : Answered s t who request code fields) : t.entries = s.entries := by rw [h.1]

end EntriesOnly

section Entries

theorem resetEntry_entriesOnly (j : EntryId) (s : State) : EntriesOnly s (s.resetEntry j) := by
  unfold State.resetEntry
  split
  · rfl
  · rfl

theorem resetEntry_others {i j : EntryId} (h : j ≠ i) (s : State) : OthersOnly i s (s.resetEntry j) := by
  refine ⟨resetEntry_entriesOnly j s, ?_⟩
  unfold State.resetEntry
  split
  · rw [setEntry_entry, if_neg h]
  · rfl

/-- An in-use entry moved by R22. -/
def resetTo (s : State) (e : Entry) : Entry :=
  if e.inUse then e.afterReset ((s.group e.group).rechargeHours * 60) else e

theorem resetEntry_self (i : EntryId) (s : State) : (s.resetEntry i).entry i = resetTo s (s.entry i) := by
  unfold State.resetEntry resetTo
  split
  · rw [setEntry_entry_self]
    rfl
  · rfl

theorem resetTo_untouched {s : State} {e : Entry} (h : e.inUse = false ∨ e.state.test = none) : resetTo s e = e := by
  unfold resetTo
  split
  · next huse => exact afterReset_untested (h.resolve_left (by simp [huse]))
  · rfl

theorem resetTo_unsent {s : State} {e : Entry} {u : CurrentTest} (huse : e.inUse = true) (h : e.state = .pending u)
    (hsent : u.startSent = false) : resetTo s e = { e with state := .ready, lastBlock := some .aborted } :=
  (if_pos huse).trans (afterReset_unsent h hsent)

theorem resetTo_running {s : State} {e : Entry} {u : CurrentTest} (huse : e.inUse = true)
    (h : (e.state = .pending u ∧ u.startSent = true) ∨ e.state = .testing u ∨ e.state = .ending u) :
    resetTo s e = { e with
      state := if u.kind = .duration then .recharging ((s.group e.group).rechargeHours * 60) else .ready } :=
  (if_pos huse).trans (afterReset_running h)

theorem resetTo_congr {s t : State} (h : EntriesOnly s t) (e : Entry) : resetTo t e = resetTo s e := by
  unfold resetTo State.group
  rw [h]

theorem resetEntries_rules (s : State) : EntriesOnly s (forEntries State.resetEntry s) ∧
    ∀ i, (forEntries State.resetEntry s).entry i = resetTo s (s.entry i) := by
  refine ⟨foldl_walk EntriesOnly.refl EntriesOnly.trans (fun t j => resetEntry_entriesOnly j t) _ s, fun i => ?_⟩
  obtain ⟨a, ⟨hbefore, hi⟩, -, hbehind⟩ := forEntries_at (OthersOnly.refl i) OthersOnly.trans
    (fun j t hj => resetEntry_others hj t) s
  rw [hbehind, resetEntry_self, hi, resetTo_congr hbefore]

/-- LINE_RESET moves the entries of its line. -/
theorem resetLineEntries_rules (s : State) (n : LineId) : EntriesOnly s (s.resetLineEntries n) ∧
    ∀ i, (s.resetLineEntries n).entry i = if (s.entry i).line = n then resetTo s (s.entry i) else s.entry i := by
  have honly (j : EntryId) (t : State) : EntriesOnly t (if (t.entry j).line = n then t.resetEntry j else t) := by
    split
    · exact resetEntry_entriesOnly j t
    · exact .refl t
  refine ⟨foldl_walk EntriesOnly.refl EntriesOnly.trans (fun t j => honly j t) _ s, fun i => ?_⟩
  obtain ⟨a, ⟨hbefore, hi⟩, -, hbehind⟩ := forEntries_at (i := i) (OthersOnly.refl i) OthersOnly.trans
    (f := fun j t => if (t.entry j).line = n then t.resetEntry j else t) (fun j t hj => by
      split
      · exact resetEntry_others hj t
      · exact .refl i t) s
  unfold State.resetLineEntries
  rw [hbehind, ← hi]
  split
  · rw [resetEntry_self, resetTo_congr hbefore]
  · rfl

end Entries

/-! ### The answers of removed requests (R146, R149) -/

/-- Answers put behind a backlog one by one. -/
theorem joinBacklogs_eq (s : State) (n : LineId) (code : LampCode) (l : List PassRequest) :
    l.foldl (fun t r => t.joinBacklog n (t.passAnswer r code [])) s =
      s.setLine n { s.line n with backlog := (s.line n).backlog ++ l.map (outcomeFrame s code) } := by
  induction l generalizing s with
  | nil =>
    rw [List.foldl_nil, List.map_nil, List.append_nil]
    exact (setLine_same s n).symm
  | cons r l ih =>
    rw [List.foldl_cons, ih, joinBacklog_line_self, State.joinBacklog, setLine_setLine, List.map_cons,
      passAnswer_outcome]
    simp only [List.append_assoc, List.singleton_append]
    rfl

/-! ### LINE_RESET (R149) -/

section LineReset

variable {s : State} {n : LineId}

theorem lineReset_eq {who : Requester} {k : Nat} (h : s.mgmt = .working who (.request (.lineReset k))) :
    exec .lineReset s = .next (s.lineReset who k) := by
  change execLineReset s = _
  rw [execLineReset, inHand_of_working h]

/-- The line as a reset leaves it. -/
def resetLineOf (s : State) (n : LineId) : LineEngine :=
  { (s.line n).reset with
    backlog := (s.line n).backlog ++ (s.line n).resetPass.map (outcomeFrame s .aborted) }

/-- The reset of the line but for its entries and its capture. -/
def lineCleared (s : State) (n : LineId) : State := s.setLine n (resetLineOf s n)

theorem resetLine_eq (s : State) (n : LineId) : s.resetLine n =
    ((lineCleared s n).captureEndAll (s.line n).resetMarks (.outcome .aborted)).resetLineEntries n := by
  unfold State.resetLine
  dsimp only
  rw [joinBacklogs_eq, setLine_setLine, setLine_line_self]
  rfl

theorem resetLine_entriesOnly (s : State) (n : LineId) :
    EntriesOnly ((lineCleared s n).captureEndAll (s.line n).resetMarks (.outcome .aborted)) (s.resetLine n) := by
  rw [resetLine_eq]
  exact (resetLineEntries_rules _ n).1

theorem resetLine_line (s : State) (n m : LineId) :
    (s.resetLine n).line m = if n = m then resetLineOf s n else s.line m := by
  have hlines : (s.resetLine n).lines = (lineCleared s n).lines :=
    (entriesOnly_lines (resetLine_entriesOnly s n)).trans (captureEndAll_lines _ _ _)
  rw [line_congr hlines, lineCleared, setLine_line]

theorem resetLine_tx (s : State) (n : LineId) : (s.resetLine n).tx = s.tx :=
  (entriesOnly_tx (resetLine_entriesOnly s n)).trans (captureEndAll_tx _ _ _)

/-- The entries of the line are moved by R22, but that a completing capture may hold one. -/
theorem resetLine_entry (s : State) (n : LineId) (i : EntryId) : ∃ held,
    (s.resetLine n).entry i = if (s.entry i).line = n then resetTo s { s.entry i with held := held }
      else { s.entry i with held := held } := by
  have hheld := holds_captureEndAll (lineCleared s n) (s.line n).resetMarks (.outcome .aborted) i
  have hgroups : ((lineCleared s n).captureEndAll (s.line n).resetMarks (.outcome .aborted)).groups = s.groups :=
    (kept_captureEndAll _ _ _).groups
  obtain ⟨held, hentry⟩ := heldAs_eq hheld
  refine ⟨held, ?_⟩
  rw [resetLine_eq, (resetLineEntries_rules _ n).2, hentry]
  unfold resetTo State.group
  rw [hgroups]
  rfl

/-- A recorded request of the line completes the capture ABORTED (R166, R167). -/
theorem resetLine_capture {record : CaptureRecord} {mark : Nat} {i : EntryId}
    (hopened : s.capture.state = .opened record mark) (hmem : (some mark, i) ∈ (s.line n).resetMarks) :
    (s.resetLine n).capture.state = .idle (some { record with answer := some (.outcome .aborted) }) ∧
      (s.resetLine n).flag .captureHit = true := by
  have honly := resetLine_entriesOnly s n
  obtain ⟨r, -, -, heq⟩ := captureEndAll_recorded (s := lineCleared s n) hopened ⟨_, hmem, rfl⟩ (.outcome .aborted)
  obtain ⟨hidle, hhit, -⟩ := captureEnd_completed (s := lineCleared s n) hopened r.2 (.outcome .aborted)
  rw [← heq] at hidle hhit
  exact ⟨(congrArg Capture.state (entriesOnly_capture honly)).trans hidle,
    (flag_congr (entriesOnly_flags honly) _).trans hhit⟩

/-- Settles O34: the line, the capture, and the table of R22. -/
theorem lineReset : Obligations.LineReset := by
  intro s who k hmgmt
  refine ⟨fun hk => ⟨_, lineReset_eq hmgmt, ?_⟩, fun h => ?_⟩
  · have hbeyond : s.lineReset who k = s.finish who 25 .indexRange [] := dif_neg (by omega)
    rw [hbeyond]
    exact finish_answered s who 25 .indexRange []
  · intro n
    have hreset : s.lineReset who k = (s.resetLine n).finish who 25 .ok [] := dif_pos h
    have hrun := lineReset_eq hmgmt
    rw [hreset] at hrun
    have hanswered := finish_answered (s.resetLine n) who 25 .ok []
    have hlines := answered_lines hanswered
    have hentries := answered_entries hanswered
    obtain ⟨hmains, hplan, hcapture, hflags⟩ := answered_rest hanswered
    obtain ⟨-, hfree, hfull⟩ := hanswered
    have hkept := kept_resetLine s n
    have hframe : answerFrame (s.resetLine n) who 25 .ok [] = answerFrame s who 25 .ok [] := by
      unfold answerFrame
      rw [hkept.strap, hkept.settings]
    rw [hframe, resetLine_tx] at hfree hfull
    have hline (m : LineId) := resetLine_line s n m
    generalize (s.resetLine n).finish who 25 .ok [] = t at *
    have htline (m : LineId) : t.line m = (s.resetLine n).line m := line_congr hlines m
    have htown : t.line n = resetLineOf s n := by rw [htline, hline, if_pos rfl]
    have htentry (i : EntryId) : t.entry i = (s.resetLine n).entry i := entry_congr hentries i
    have hsame : SameMap s t := fun i => by rw [htentry]; exact hkept.map i
    refine ⟨t, hrun, hfree, hfull, ?_, ?_, ?_, ?_, ?_, ?_, ?_, ?_, ?_, ?_, ?_, fun m hm => ?_, ?_, ?_, hsame,
      fun record mark i hopened hmem => ?_, fun i => ?_⟩
    · rw [htown]; rfl
    · rw [htown]; rfl
    · rw [htown]; rfl
    · rw [htown]; rfl
    · rw [htown]; rfl
    · rw [htown]; rfl
    · rw [htown]; rfl
    · rw [htown]; rfl
    · rw [htown]; rfl
    · rw [htown]
      exact congrArg (· || (s.line n).senseDue) (isDown_eq_decide _)
    · rw [htown]; rfl
    · rw [htline, hline, if_neg hm.symm]
    · exact hmains.trans hkept.mains
    · exact hplan.trans hkept.plan
    · obtain ⟨hidle, hhit⟩ := resetLine_capture hopened hmem
      exact ⟨(congrArg Capture.state hcapture).trans hidle,
        (flag_congr hflags _).trans hhit⟩
    · obtain ⟨held, hentry⟩ := resetLine_entry s n i
      rw [htentry, hentry]
      refine ⟨fun hout => ?_, fun huse hi => ⟨fun u hu hsent => ?_, fun u hu => ?_⟩⟩
      · split
        · next hi =>
          rw [resetTo_untouched (e := { s.entry i with held := held })]
          exact hout.imp_right (Or.resolve_left · (not_not_intro hi))
        · rfl
      · rw [if_pos hi, resetTo_unsent (e := { s.entry i with held := held }) huse hu hsent]
        exact ⟨rfl, rfl⟩
      · rw [if_pos hi, resetTo_running (e := { s.entry i with held := held }) huse hu]
        exact ⟨rfl, rfl⟩

end LineReset

/-! ### BRIDGE_RESET (R150, R176) -/

section BridgeReset

/-- The lines alone differ. -/
def LinesOnly (s t : State) : Prop := t = { s with lines := t.lines }

theorem LinesOnly.refl (s : State) : LinesOnly s s := rfl

theorem LinesOnly.trans {s t u : State} (h : LinesOnly s t) (k : LinesOnly t u) : LinesOnly s u := by
  unfold LinesOnly at *
  rw [k, h]

/-- The lines alone differ, and one line does not. -/
def OtherLines (n : LineId) (s t : State) : Prop := LinesOnly s t ∧ t.line n = s.line n

theorem OtherLines.trans {n : LineId} {s t u : State} (h : OtherLines n s t) (k : OtherLines n t u) :
    OtherLines n s u := ⟨h.1.trans k.1, k.2.trans h.2⟩

theorem resetEngine_linesOnly (m : LineId) (s : State) : LinesOnly s (s.resetEngine m) := rfl

theorem resetEngine_others {n m : LineId} (h : m ≠ n) (s : State) : OtherLines n s (s.resetEngine m) := by
  refine ⟨resetEngine_linesOnly m s, ?_⟩
  rw [State.resetEngine, setLine_line, if_neg h]

theorem resetEngine_self (n : LineId) (s : State) :
    (s.resetEngine n).line n = { (s.line n).reset with backlog := [] } := setLine_line_self ..

theorem resetEngines_rules (s : State) : LinesOnly s (forLines State.resetEngine s) ∧
    ∀ n, (forLines State.resetEngine s).line n = { (s.line n).reset with backlog := [] } := by
  refine ⟨foldl_walk LinesOnly.refl LinesOnly.trans (fun t m => resetEngine_linesOnly m t) _ s, fun n => ?_⟩
  obtain ⟨a, ⟨-, hn⟩, -, hbehind⟩ := forLines_at (R := OtherLines n) (fun t => ⟨.refl t, rfl⟩) OtherLines.trans
    (fun m t hm => resetEngine_others hm t) s
  rw [hbehind, resetEngine_self, hn]

/-- BRIDGE_RESET leaves all but what its table names. -/
theorem resetBlocks_rest {s a d : State} (ha : EntriesOnly s a) (hd : LinesOnly a d) :
    d = { s with entries := a.entries, lines := d.lines } := by
  unfold EntriesOnly LinesOnly at *
  rw [hd, ha]

theorem bridgeReset_eq {s : State} {who : Requester} (h : s.mgmt = .working who (.request .bridgeReset)) :
    exec .bridgeReset s = .next (s.bridgeReset who) := by
  change execBridgeReset s = _
  rw [execBridgeReset, inHand_of_working h]

/-- The blocks after the reset: those of the state but for the entries and lines, and what the table empties. -/
theorem resetBlocks_eq (s : State) : ∃ entries lines,
    s.resetBlocks = { s with
      entries := entries, lines := lines, passTimer := 0, passState := .idle, plan := [], rx := [],
      tx := if s.portOpen = true ∧ s.linkUp = true then s.tx.take 1 else [], rotation := .lampPath,
      lampWaiting := false, capture := { Capture.initial with nextMark := s.capture.nextMark },
      noticePending := false, noticeOwed := false } := by
  obtain ⟨hentries, -⟩ := resetEntries_rules s
  obtain ⟨hlines, -⟩ := resetEngines_rules (forEntries State.resetEntry s)
  have htx : (if s.sending then s.tx.take 1 else []) =
      if s.portOpen = true ∧ s.linkUp = true then s.tx.take 1 else [] := by
    unfold State.sending
    cases s.tx with
    | nil => simp
    | cons => simp
  refine ⟨(forEntries State.resetEntry s).entries,
    (forLines State.resetEngine (forEntries State.resetEntry s)).lines, ?_⟩
  unfold State.resetBlocks
  dsimp only
  have hrest := resetBlocks_rest hentries hlines
  generalize forLines State.resetEngine (forEntries State.resetEntry s) = d at hrest ⊢
  rw [htx, hrest]

/-- The entries and lines are those of the walks. -/
theorem resetBlocks_walks (s : State) :
    s.resetBlocks.lines = (forLines State.resetEngine (forEntries State.resetEntry s)).lines ∧
      s.resetBlocks.entries = (forEntries State.resetEntry s).entries := by
  obtain ⟨hlines, -⟩ := resetEngines_rules (forEntries State.resetEntry s)
  unfold State.resetBlocks
  dsimp only
  generalize forEntries State.resetEntry s = a at hlines ⊢
  generalize forLines State.resetEngine a = d at hlines ⊢
  exact ⟨rfl, by rw [hlines]⟩

theorem resetBlocks_line (s : State) (n : LineId) :
    s.resetBlocks.line n = { (s.line n).reset with backlog := [] } := by
  obtain ⟨hentries, -⟩ := resetEntries_rules s
  rw [line_congr (resetBlocks_walks s).1, (resetEngines_rules _).2, line_congr (entriesOnly_lines hentries)]

theorem resetBlocks_entry (s : State) (i : EntryId) : s.resetBlocks.entry i = resetTo s (s.entry i) := by
  rw [entry_congr (resetBlocks_walks s).2, (resetEntries_rules s).2]

/-- Settles O35: what the reset empties, what it keeps, and the table of R22. -/
theorem bridgeReset : Obligations.BridgeReset := by
  intro s who hmgmt
  refine ⟨s.bridgeReset who, bridgeReset_eq hmgmt, ?_⟩
  have hanswered : Answered s.resetBlocks (s.bridgeReset who) who 26 .ok [] := finish_answered ..
  have hline (n : LineId) := (line_congr (answered_lines hanswered) n).trans (resetBlocks_line s n)
  have hentry (i : EntryId) := (entry_congr (answered_entries hanswered) i).trans (resetBlocks_entry s i)
  obtain ⟨entries, lines, hblocks⟩ := resetBlocks_eq s
  rw [hblocks] at hanswered
  generalize s.bridgeReset who = t at *
  obtain ⟨hrest, hfree, -⟩ := hanswered
  have hroom : (if s.portOpen = true ∧ s.linkUp = true then s.tx.take 1 else []).length < 16 := by
    split
    · rw [List.length_take]; omega
    · exact Nat.zero_lt_succ _
  obtain ⟨htx, hidle⟩ := hfree hroom
  have hsame : SameMap s t := fun i => by
    rw [hentry]
    unfold resetTo
    split
    · exact sameIdentity_afterReset _ _
    · exact sameIdentity_refl _
  refine ⟨hidle, by rw [hrest], htx, by rw [hrest], by rw [hrest], by rw [hrest]; exact ⟨rfl, rfl, rfl⟩,
    by rw [hrest]; exact ⟨rfl, rfl, rfl⟩, by rw [hrest]; exact ⟨rfl, rfl, rfl, rfl⟩,
    ⟨by rw [hrest]; exact ⟨rfl, rfl, rfl⟩, ?_, by rw [hrest]; exact ⟨rfl, rfl⟩, by rw [hrest], hsame⟩,
    fun n => ?_, fun i => ⟨fun hout => ?_, fun huse => ⟨fun u hu hsent => ?_, fun u hu => ?_⟩⟩⟩
  · have hsettings (n : LineId) : (t.line n).settings = (s.line n).settings := by rw [hline]; rfl
    refine ⟨?_, ?_, ?_, ?_, ?_, ?_, hsettings⟩
    all_goals rw [hrest]
  · rw [hline]
    exact ⟨rfl, rfl, rfl, rfl, rfl, rfl, rfl, rfl, congrArg (· || (s.line n).senseDue) (isDown_eq_decide _), rfl⟩
  · rw [hentry, resetTo_untouched hout]
  · rw [hentry, resetTo_unsent huse hu hsent]
  · rw [hentry, resetTo_running huse hu]

end BridgeReset

end Sys2Proof.Resets
end

section
/-! The supply of a line: its retry, its sense and its faults (R139, R144, R146, R147, R149, R150). -/

namespace Sys2Proof.Supply

open Sys2Proof Sys2Proof.Machine Sys2Proof.Machine.Safety Sys2Proof.Laws Sys2Proof.Walks Sys2Proof.DeviceLaws
  Sys2Proof.SchedulingPass Sys2Proof.LineService Sys2Proof.Resets

/-! ### What the service of a line leaves of it -/

/-- A line keeps its supply, its sense, its retry timer and its backlog, and goes DOWN or comes up only so. -/
structure Served (l l' : LineEngine) : Prop where
  sense   : l'.senseDue = l.senseDue
  supply  : l'.supplyOn = l.supplyOn
  retry   : l'.retryTimer = l.retryTimer
  backlog : l'.backlog = l.backlog
  down    : l'.engine = .down ↔ l.engine = .down

theorem Served.refl (l : LineEngine) : Served l l := ⟨rfl, rfl, rfl, rfl, .rfl⟩

/-- Every line is served so. -/
def LinesServed (s t : State) : Prop := ∀ m, Served (s.line m) (t.line m)

theorem linesServed_at {s t : State} {n : LineId} (honly : OnlyLine n s t)
    (h : Served (s.line n) (t.line n)) : LinesServed s t := by
  intro m
  by_cases hm : m = n
  · subst hm
    exact h
  · rw [honly.others m hm]
    exact .refl _

/-- A grant takes an IDLE line into an exchange. -/
theorem served_begun {s : State} {n : LineId} {l : LineEngine} {c : Client} {w : Work} {node : Nat}
    (hidle : (s.line n).engine = .idle) (h : Served (s.line n) l) :
    Served (s.line n) (((s.setLine n l).beginExchange n c w node).line n) := by
  rw [beginExchange_line, setLine_line_self]
  exact ⟨h.sense, h.supply, h.retry, h.backlog, ⟨nofun, fun hdown => by rw [hidle] at hdown; cases hdown⟩⟩

theorem linesServed_lineWork : LineWork LinesServed where
  refl := fun s m => .refl _
  trans := fun h k m => ⟨(k m).sense.trans (h m).sense, (k m).supply.trans (h m).supply,
    (k m).retry.trans (h m).retry, (k m).backlog.trans (h m).backlog, (k m).down.trans (h m).down⟩
  joinControl := fun s n k i node _ => by
    refine linesServed_at (onlyLine_joinControl s n k i node) ?_
    rw [joinControl_line]
    exact ⟨rfl, rfl, rfl, rfl, .rfl⟩
  grantTo := fun s n c hidle => by
    refine linesServed_at (onlyLine_grantTo s n c) ?_
    unfold State.grantTo
    dsimp only
    split
    · split
      · exact served_begun hidle ⟨rfl, rfl, rfl, rfl, .rfl⟩
      · exact .refl _
    · split
      · exact served_begun hidle ⟨rfl, rfl, rfl, rfl, .rfl⟩
      · exact .refl _
    · split
      · exact served_begun hidle ⟨rfl, rfl, rfl, rfl, .rfl⟩
      · exact .refl _

/-! ### Retry and sense (R147) -/

section Sense

variable {s : State} {n : LineId}

theorem senseRead_undue (h : (s.line n).senseDue = false) (limit : Bool) : s.senseRead n limit = s := if_pos h

theorem senseRead_due (h : (s.line n).senseDue = true) (limit : Bool) : s.senseRead n limit =
    if (s.line n).engine.isDown then
      if limit then
        s.setLine n { s.line n with supplyOn := false, retryTimer := some 10, senseDue := false }
      else (s.setLine n { s.line n with engine := .idle, senseDue := false }).settleLine n
    else if limit then (s.setLine n { s.line n with senseDue := false }).supplyFault n
    else s.setLine n { s.line n with senseDue := false } :=
  if_neg (by rw [h]; exact nofun)

theorem gapEnd_of_gap {l : LineEngine} (h : l.engine = .gap) :
    (s.setLine n l).gapEnd n = (s.setLine n { l with engine := .idle }).settleLine n := by
  have hline : (s.setLine n l).line n = l := setLine_line_self s n l
  rw [State.gapEnd, hline, if_pos (by rw [h]; rfl), State.setEngine, hline, setLine_setLine]

end Sense

/-- Settles O32: the retry, and the read on a line that is DOWN, is up, or is not due. -/
theorem supplyRetryAndSense : Obligations.SupplyRetryAndSense := by
  intro s n
  have hread (limit : Bool) : exec (.supplySenseRead n limit) s = .next (s.senseRead n limit) := rfl
  refine ⟨fun hdown => ⟨fun hoff => ?_, fun hdue => ?_⟩, fun hup hdue => ?_, fun hdue limit => ?_⟩
  · have hretry : exec (.supplyRetry n) s = .next (s.supplyRetry n) := rfl
    rw [hretry]
    exact congrArg Host.Outcome.next (if_pos (by rw [isDown_iff.mpr hdown, hoff]; rfl))
  · have hisDown := isDown_iff.mpr hdown
    have hoff : s.senseRead n true =
        s.setLine n { s.line n with supplyOn := false, retryTimer := some 10, senseDue := false } := by
      rw [senseRead_due hdue, if_pos hisDown, if_pos rfl]
    have hon : s.senseRead n false =
        (s.setLine n { s.line n with engine := .idle, senseDue := false }).settleLine n := by
      rw [senseRead_due hdue, if_pos hisDown, if_neg Bool.false_ne_true]
    refine ⟨?_, ?_, s.senseRead n false, hread false, ?_⟩
    · rw [hread, hoff]
      rfl
    · have hgap (t : State) : exec (.gapEnd n) t = .next (t.gapEnd n) := rfl
      rw [hread, hgap, hon]
      exact congrArg Host.Outcome.next
        (gapEnd_of_gap (s := s) (l := { s.line n with engine := .gap, senseDue := false }) rfl).symm
    · rw [hon]
      obtain ⟨hsense, hsupply, -, -, hdown⟩ := linesServed_lineWork.settleLine
        (s.setLine n { s.line n with engine := .idle, senseDue := false }) n n
      rw [setLine_line_self] at hsense hsupply hdown
      exact ⟨mt hdown.mp nofun, hsense, hsupply, (quiet_lineWork.settleLine _ _).flags⟩
  · have hisUp : ¬(s.line n).engine.isDown = true := mt isDown_iff.mp hup
    intro read
    have hfault (t : State) : exec (.lineSupplyFault n) t = .next (t.supplyFault n) := rfl
    refine ⟨?_, ?_⟩
    · rw [hread, hfault, senseRead_due hdue, if_neg hisUp, if_pos rfl]
      rfl
    · rw [hread, senseRead_due hdue, if_neg hisUp, if_neg Bool.false_ne_true]
      rfl
  · rw [hread, senseRead_undue hdue]

end Sys2Proof.Supply
end

section
/-! An exchange cut short by LINE_ABORT or a line-supply fault: what the Monitor, the Capture Unit and the client make of
its end (R92, R97, R103, R138, R146, R148, R166). -/

namespace Sys2Proof.CutExchanges

open Sys2Proof Sys2Proof.Machine Sys2Proof.Machine.Safety Sys2Proof.Laws Sys2Proof.Walks Sys2Proof.DeviceLaws
  Sys2Proof.LineOrder Sys2Proof.EntryOrder Sys2Proof.SchedulingPass Sys2Proof.LineService Sys2Proof.Captures
  Sys2Proof.ExchangeEnds Sys2Proof.OwnEntry Sys2Proof.Losses

/-- The block reason of a start whose exchange was cut short (R92). -/
def cutReason : ExchangeEnd → BlockReason
  | .lineDown => .lineDown
  | _ => .aborted

/-- The exchange is the own start of the entry, sent for it. -/
def OwnStart (s : State) (n : LineId) (x : Exchange) (i : EntryId) : Prop :=
  x.work.name.isStart = true ∧ s.findPlace n x.node = some i ∧
    ∃ u, (s.entry i).state = .pending u ∧ u.startSent = true

section Monitor

variable {s : State} {n : LineId} {x : Exchange} {e : ExchangeEnd} {i : EntryId}

/-- What the Monitor makes of the end. -/
def monitored (s : State) (n : LineId) (x : Exchange) (e : ExchangeEnd) : State :=
  s.monitorEnd n x.node x.work.name x.work.isPoll e

theorem monitored_start (he : e = .aborted ∨ e = .lineDown) (h : OwnStart s n x i) :
    monitored s n x e = s.takeBack i (cutReason e) := by
  obtain ⟨hname, hplace, u, hu, hsent⟩ := h
  unfold monitored State.monitorEnd
  rw [hplace]
  dsimp only
  rw [hu]
  dsimp only
  rw [State.endForPending, if_pos (by rw [hname, hsent]; rfl)]
  rcases he with rfl | rfl
  · rfl
  · rfl

/-- Any other exchange changes no entry; a poll of a TESTING entry may join again (R97). -/
theorem monitored_other (he : e = .aborted ∨ e = .lineDown) (h : ∀ i, ¬OwnStart s n x i) :
    monitored s n x e = s ∨ ∃ i, (s.entry i).line = n ∧ monitored s n x e = s.joinPoll i := by
  unfold monitored State.monitorEnd
  split
  · exact .inl rfl
  · next i hplace =>
    obtain ⟨-, hline, -⟩ := findPlace_some hplace
    split
    · next u hu =>
      refine .inl (if_neg fun hown => ?_)
      rw [Bool.and_eq_true] at hown
      exact h i ⟨hown.1, hplace, u, hu, hown.2⟩
    · next u hu =>
      unfold State.endForTesting
      rcases he with rfl | rfl
      · split
        · dsimp only
          split
          · exact .inr ⟨i, hline, rfl⟩
          · exact .inl rfl
        · exact .inl rfl
        · exact .inl rfl
      · split
        · dsimp only
          split
          · exact .inr ⟨i, hline, rfl⟩
          · exact .inl rfl
        · exact .inl rfl
        · exact .inl rfl
    · next u hu =>
      refine .inl ?_
      unfold State.endForEnding
      rcases he with rfl | rfl
      · split
        · rfl
        · rfl
        · rfl
      · split
        · rfl
        · rfl
        · rfl
    all_goals exact .inl rfl

theorem monitored_poll (he : e = .aborted ∨ e = .lineDown) {p : PollRequest} {u : CurrentTest} (hw : x.work = .poll p)
    (hplace : s.findPlace n x.node = some i) (hu : (s.entry i).state = .testing u) :
    monitored s n x e = s.joinPoll i := by
  unfold monitored State.monitorEnd
  rw [hplace, hw]
  dsimp only
  rw [hu]
  rcases he with rfl | rfl
  · rfl
  · rfl

/-- What a cut exchange leaves of the line, the capture, the flags and the holds. -/
structure CutKept (n : LineId) (s t : State) : Prop where
  only    : OnlyLine n s t
  line    : ∃ polls, t.line n = { s.line n with polls := polls } ∧ ∀ p ∈ (s.line n).polls, p ∈ polls
  capture : CaptureFixed s t
  flags   : t.flags = s.flags
  held    : ∀ j, (t.entry j).held = (s.entry j).held

theorem cutKept_refl (n : LineId) (s : State) : CutKept n s s :=
  ⟨.refl n s, ⟨_, rfl, fun _ => id⟩, .refl s, rfl, fun _ => rfl⟩

theorem cutKept_takeBack (n : LineId) (s : State) (i : EntryId) (r : BlockReason) : CutKept n s (s.takeBack i r) := by
  refine ⟨onlyLine_setEntry n s i _, ⟨_, rfl, fun _ => id⟩, captureFixed_of_eq rfl, rfl, fun j => ?_⟩
  rw [takeBack_entry]
  split
  · next h => rw [h]
  · rfl

theorem cutKept_joinPoll (s : State) (i : EntryId) : CutKept (s.entry i).line s (s.joinPoll i) := by
  refine ⟨onlyLine_joinPoll s i, ?_, captureFixed_joinPoll s i, (quiet_joinPoll s i).flags, fun j => ?_⟩
  · cases hw : (s.line (s.entry i).line).polls.any (fun p => p.entry == i) with
    | true =>
      rw [joinPoll_waiting hw]
      exact ⟨_, rfl, fun _ => id⟩
    | false =>
      rw [joinPoll_line hw]
      exact ⟨_, rfl, fun p hp => (insertPoll_perm _ _).mem_iff.mpr (List.mem_cons_of_mem _ hp)⟩
  · rw [entry_congr (joinPoll_entries s i)]

theorem monitored_kept (he : e = .aborted ∨ e = .lineDown) (s : State) (n : LineId) (x : Exchange) :
    CutKept n s (monitored s n x e) := by
  by_cases h : ∃ i, OwnStart s n x i
  · obtain ⟨i, hi⟩ := h
    rw [monitored_start he hi]
    exact cutKept_takeBack n s i _
  · rcases monitored_other he (not_exists.mp h) with h | ⟨i, hline, h⟩
    · rw [h]
      exact cutKept_refl n s
    · rw [h, ← hline]
      exact cutKept_joinPoll s i

theorem monitored_entry_own (he : e = .aborted ∨ e = .lineDown) (h : OwnStart s n x i) :
    (monitored s n x e).entry i = { s.entry i with state := .ready, lastBlock := some (cutReason e) } := by
  rw [monitored_start he h, takeBack_entry_self]

theorem monitored_entry_other (he : e = .aborted ∨ e = .lineDown) (h : ¬OwnStart s n x i) :
    (monitored s n x e).entry i = s.entry i := by
  by_cases hown : ∃ j, OwnStart s n x j
  · obtain ⟨j, hj⟩ := hown
    rw [monitored_start he hj, takeBack_entry, if_neg]
    rintro rfl
    exact h hj
  · rcases monitored_other he (not_exists.mp hown) with h | ⟨j, -, h⟩
    · rw [h]
    · rw [h, entry_congr (joinPoll_entries s j)]

/-- A joined PROBE waits. -/
theorem joinPoll_waits (s : State) (i : EntryId) : ∃ q ∈ ((s.joinPoll i).line (s.entry i).line).polls, q.entry = i := by
  cases hw : (s.line (s.entry i).line).polls.any (fun p => p.entry == i) with
  | true =>
    rw [joinPoll_waiting hw]
    obtain ⟨q, hq, hentry⟩ := List.any_eq_true.mp hw
    exact ⟨q, hq, eq_of_beq hentry⟩
  | false =>
    rw [joinPoll_line hw]
    exact ⟨_, (insertPoll_perm _ _).mem_iff.mpr (List.mem_cons_self ..), rfl⟩

end Monitor

/-! ### The Capture Unit's part (R166) -/

section Noted

variable {s : State} {n : LineId} {x : Exchange} {e : ExchangeEnd} {i : EntryId}

/-- The Monitor's and the Capture Unit's part of the end. -/
def cutNoted (s : State) (n : LineId) (x : Exchange) (e : ExchangeEnd) : State :=
  (monitored s n x e).captureEnd x.work.mark x.work.entry e.captureAnswer

theorem handEnd_eq (s : State) (n : LineId) (x : Exchange) (e : ExchangeEnd) :
    s.handEnd n x e = (cutNoted s n x e).clientEnd n x.work e := rfl

theorem kept_cutNoted (s : State) (n : LineId) (x : Exchange) (e : ExchangeEnd) : Kept s (cutNoted s n x e) :=
  (kept_monitorEnd _ _ _ _ _ _).trans (kept_captureEnd _ _ _ _)

theorem cutNoted_only (he : e = .aborted ∨ e = .lineDown) : OnlyLine n s (cutNoted s n x e) :=
  (monitored_kept he s n x).only.trans (onlyLine_captureEnd n _ _ _ _)

theorem cutNoted_line (he : e = .aborted ∨ e = .lineDown) : ∃ polls,
    (cutNoted s n x e).line n = { s.line n with polls := polls } ∧ ∀ p ∈ (s.line n).polls, p ∈ polls := by
  obtain ⟨polls, hline, hmem⟩ := (monitored_kept he s n x).line
  exact ⟨polls, (line_congr (captureEnd_lines _ _ _ _) n).trans hline, hmem⟩

theorem cutNoted_entry_own (he : e = .aborted ∨ e = .lineDown) (h : OwnStart s n x i) : ∃ held,
    (cutNoted s n x e).entry i =
      { s.entry i with state := .ready, lastBlock := some (cutReason e), held := held } := by
  obtain ⟨held, hentry⟩ := heldAs_eq (holds_captureEnd (monitored s n x e) x.work.mark x.work.entry e.captureAnswer i)
  refine ⟨held, hentry.trans ?_⟩
  rw [monitored_entry_own he h]

theorem cutNoted_entry_other (he : e = .aborted ∨ e = .lineDown) (h : ¬OwnStart s n x i) : ∃ held,
    (cutNoted s n x e).entry i = { s.entry i with held := held } := by
  obtain ⟨held, hentry⟩ := heldAs_eq (holds_captureEnd (monitored s n x e) x.work.mark x.work.entry e.captureAnswer i)
  refine ⟨held, hentry.trans ?_⟩
  rw [monitored_entry_other he h]

theorem cutNoted_flags (he : e = .aborted ∨ e = .lineDown) : FlagsStay s (cutNoted s n x e) :=
  (flagsStay_of_eq (monitored_kept he s n x).flags).trans (flagsStay_captureEnd _ _ _ _)

/-- The end of the recorded request completes the capture. -/
theorem cutNoted_completed (he : e = .aborted ∨ e = .lineDown) {record : CaptureRecord} {k : Nat}
    (hopened : s.capture.state = .opened record k) (hmark : x.work.mark = some k) :
    CaptureCompleted s (cutNoted s n x e) record x.work.entry e.captureAnswer := by
  have hkept := monitored_kept he s n x
  have hcapture := hkept.capture (by rw [hopened]; exact nofun)
  obtain ⟨hin, hcln, -⟩ := (kept_monitorEnd s n x.node x.work.name x.work.isPoll e).map x.work.entry
  rw [cutNoted, hmark]
  exact completed_before (captureEnd_completed (by rw [← hopened, ← hcapture]) _ _) hcapture (hkept.held _) hin hcln

end Noted

/-! ### The client's part (R146, R148) -/

section Client

variable {s : State} {n : LineId} {w : Work} {e : ExchangeEnd}

theorem clientEnd_passDown (s : State) (n : LineId) (r : PassRequest) :
    s.clientEnd n (.passThrough r) .lineDown = s.joinBacklog n (outcomeFrame s .lineDown r) := rfl

theorem clientEnd_passAborted (s : State) (n : LineId) (r : PassRequest) :
    s.clientEnd n (.passThrough r) .aborted = s.passAnswerOut n (outcomeFrame s .aborted r) := rfl

/-- A bridge stop is put back while there is room. -/
theorem clientEnd_putBack {c : ControlRequest} (he : e = .aborted ∨ e = .lineDown) (hkind : c.kind = .stopTest)
    (hroom : (s.line n).control.length < 4) :
    s.clientEnd n (.control c) e = s.joinControl n .stopTest c.entry c.node := by
  unfold State.clientEnd
  dsimp only
  rw [hkind]
  rcases he with rfl | rfl
  · exact if_pos hroom
  · exact if_pos hroom

/-- Bridge work ends in nothing, or in a stop put back. -/
theorem clientEnd_bridge (hw : ∀ r, w ≠ .passThrough r) (s : State) (n : LineId) (e : ExchangeEnd) :
    s.clientEnd n w e = s ∨ ∃ i node, s.clientEnd n w e = s.joinControl n .stopTest i node := by
  have hput (c : ControlRequest) : (if (s.line n).control.length < 4 then s.joinControl n .stopTest c.entry c.node
      else s) = s ∨ ∃ i node, (if (s.line n).control.length < 4 then s.joinControl n .stopTest c.entry c.node
      else s) = s.joinControl n .stopTest i node := by
    split
    · exact .inr ⟨_, _, rfl⟩
    · exact .inl rfl
  unfold State.clientEnd
  split
  · next r => exact absurd rfl (hw r)
  · next c =>
    split
    · exact hput c
    · exact hput c
    · exact .inl rfl
  · exact .inl rfl

/-- The client's part leaves the entries, the flags and a capture that does not watch. -/
theorem clientEnd_rest (he : e = .aborted ∨ e = .lineDown) (s : State) (n : LineId) (w : Work) :
    (s.clientEnd n w e).entries = s.entries ∧ (s.clientEnd n w e).flags = s.flags ∧
      CaptureFixed s (s.clientEnd n w e) := by
  by_cases hw : ∃ r, w = .passThrough r
  · obtain ⟨r, rfl⟩ := hw
    rcases he with rfl | rfl
    · rw [clientEnd_passAborted]
      obtain ⟨hentries, hcapture, hflags⟩ := passAnswerOut_rest s n (outcomeFrame s .aborted r)
      exact ⟨hentries, hflags, captureFixed_of_eq hcapture⟩
    · exact ⟨rfl, rfl, captureFixed_of_eq rfl⟩
  · rcases clientEnd_bridge (not_exists.mp hw) s n e with h | ⟨i, node, h⟩
    · rw [h]
      exact ⟨rfl, rfl, .refl s⟩
    · rw [h]
      exact ⟨joinControl_entries _ _ _ _ _, (quiet_joinControl _ _ _ _ _).flags, captureFixed_joinControl _ _ _ _ _⟩

/-- Bridge work puts stops behind the line's control queue, and changes nothing else of the lines. -/
theorem clientEnd_bridge_line (hw : ∀ r, w ≠ .passThrough r) (s : State) (n : LineId) (e : ExchangeEnd) :
    OnlyLine n s (s.clientEnd n w e) ∧ ∃ stops : List ControlRequest, (∀ c ∈ stops, c.kind = .stopTest) ∧
      (s.clientEnd n w e).line n = { s.line n with control := (s.line n).control ++ stops } := by
  rcases clientEnd_bridge hw s n e with h | ⟨i, node, h⟩
  · rw [h]
    exact ⟨.refl n s, [], nofun, by rw [List.append_nil]⟩
  · rw [h, joinControl_line]
    exact ⟨onlyLine_joinControl _ _ _ _ _, _, fun c hc => by rw [List.mem_singleton.mp hc], rfl⟩

end Client

end Sys2Proof.CutExchanges
end

section
/-! LINE_ABORT (R92, R97, R103, R138, R140, R146, R148, R166, R175). -/

namespace Sys2Proof.Aborts

open Sys2Proof Sys2Proof.Machine Sys2Proof.Machine.Safety Sys2Proof.Laws Sys2Proof.Walks Sys2Proof.DeviceLaws
  Sys2Proof.LineOrder Sys2Proof.EntryOrder Sys2Proof.SchedulingPass Sys2Proof.LineService Sys2Proof.Captures
  Sys2Proof.ExchangeEnds Sys2Proof.OwnEntry Sys2Proof.Losses Sys2Proof.Attempts Sys2Proof.Resets
  Sys2Proof.CutExchanges

section Abort

variable {s : State} {n : LineId} {x : Exchange} {i : EntryId}

theorem cut_aborted : ExchangeEnd.aborted = .aborted ∨ ExchangeEnd.aborted = .lineDown := .inl rfl

/-- What is noted of the end, the engine in GAP. -/
def abortNoted (s : State) (n : LineId) (x : Exchange) : State := cutNoted (s.setEngine n .gap) n x .aborted

theorem abortLine_eq (h : (s.line n).engine.exchange = some x) :
    s.abortLine n = ((abortNoted s n x).clientEnd n x.work .aborted).settleLine n := by
  rw [State.abortLine, h]
  rfl

theorem abortNoted_line (s : State) (n : LineId) (x : Exchange) : ∃ polls,
    (abortNoted s n x).line n = { s.line n with engine := .gap, polls := polls } ∧ ∀ p ∈ (s.line n).polls, p ∈ polls := by
  obtain ⟨polls, hline, hmem⟩ := cutNoted_line (s := s.setEngine n .gap) (n := n) (x := x) cut_aborted
  rw [setEngine_line_self] at hline hmem
  exact ⟨polls, hline, hmem⟩

theorem abortNoted_only (s : State) (n : LineId) (x : Exchange) : OnlyLine n s (abortNoted s n x) :=
  (onlyLine_setEngine n s .gap).trans (cutNoted_only cut_aborted)

theorem kept_abortNoted (s : State) (n : LineId) (x : Exchange) : Kept s (abortNoted s n x) :=
  (kept_setEngine s n .gap).trans (kept_cutNoted _ _ _ _)

/-- What the client makes of it: the engine in GAP or HOLDING, the control queue with a stop put back behind it. -/
theorem abortClient_line (s : State) (n : LineId) (x : Exchange) :
    let t := (abortNoted s n x).clientEnd n x.work .aborted
    (t.line n).engine ≠ .idle ∧ (t.line n).pass = (s.line n).pass ∧ ∀ m, m ≠ n → t.line m = s.line m := by
  obtain ⟨polls, hline, -⟩ := abortNoted_line s n x
  have hpass : ((abortNoted s n x).line n).pass = (s.line n).pass := by rw [hline]
  have honly := abortNoted_only s n x
  intro t
  by_cases hw : ∃ r, x.work = .passThrough r
  · obtain ⟨r, hr⟩ := hw
    have ht : t = (abortNoted s n x).passAnswerOut n (outcomeFrame (abortNoted s n x) .aborted r) := by
      rw [← clientEnd_passAborted, ← hr]
    rw [ht]
    unfold State.passAnswerOut
    split
    · refine ⟨?_, ?_, fun m hm => ?_⟩
      · rw [setEngine_line_self]; exact nofun
      · rw [setEngine_line_self]
        exact hpass
      · rw [setEngine_line, if_neg hm.symm]
        exact honly.others m hm
    · refine ⟨?_, ?_, fun m hm => ?_⟩
      · rw [setEngine_line_self]; exact nofun
      · rw [setEngine_line_self, joinBacklog_line_self]
        exact hpass
      · rw [setEngine_line, if_neg hm.symm, State.joinBacklog, setLine_line, if_neg hm.symm]
        exact honly.others m hm
  · obtain ⟨hstops, stops, -, hclient⟩ :=
      clientEnd_bridge_line (not_exists.mp hw) (abortNoted s n x) n .aborted
    refine ⟨?_, ?_, fun m hm => (hstops.others m hm).trans (honly.others m hm)⟩
    · rw [hclient, hline]; exact nofun
    · rw [hclient, hline]

/-- The abort settled: stops behind the control queue, no other change. -/
theorem abort_settled (h : (s.line n).engine.exchange = some x) :
    (s.abortLine n).entries = (abortNoted s n x).entries ∧
      (s.abortLine n).tx = ((abortNoted s n x).clientEnd n x.work .aborted).tx ∧
      (∃ stops : List ControlRequest,
        (s.abortLine n).line n = { ((abortNoted s n x).clientEnd n x.work .aborted).line n with
          control := (((abortNoted s n x).clientEnd n x.work .aborted).line n).control ++ stops }) ∧
      (∀ m, m ≠ n → (s.abortLine n).line m = s.line m) ∧ FlagsStay (abortNoted s n x) (s.abortLine n) ∧
      CaptureFixed (abortNoted s n x) (s.abortLine n) := by
  obtain ⟨hbusy, -, hothers⟩ := abortClient_line s n x
  obtain ⟨hentries, hflags, hcapture⟩ := clientEnd_rest cut_aborted (abortNoted s n x) n x.work
  have hquiet := quiet_lineWork.settleLine ((abortNoted s n x).clientEnd n x.work .aborted) n
  have honly := onlyLine_settleLine ((abortNoted s n x).clientEnd n x.work .aborted) n
  have hfixed := captureFixed_lineWork.settleLine ((abortNoted s n x).clientEnd n x.work .aborted) n
  obtain ⟨stops, -, hline⟩ := settleLine_busy_line hbusy
  have hsame := settleLine_busy_entries hbusy
  rw [abortLine_eq h]
  exact ⟨hsame.trans hentries, hquiet.tx, ⟨stops, hline⟩,
    fun m hm => (honly.others m hm).trans (hothers m hm), flagsStay_of_eq (hquiet.flags.trans hflags),
    hcapture.trans hfixed⟩

theorem abort_pass (h : (s.line n).engine.exchange = some x) : ((s.abortLine n).line n).pass = (s.line n).pass := by
  obtain ⟨-, -, ⟨stops, hline⟩, -⟩ := abort_settled h
  obtain ⟨-, hpass, -⟩ := abortClient_line s n x
  rw [hline]
  exact hpass

theorem ownStart_gap : OwnStart (s.setEngine n .gap) n x i ↔ OwnStart s n x i := .rfl

theorem abort_own (h : (s.line n).engine.exchange = some x) (hown : OwnStart s n x i) : ∃ held,
    (s.abortLine n).entry i = { s.entry i with state := .ready, lastBlock := some .aborted, held := held } := by
  obtain ⟨hentries, -⟩ := abort_settled h
  rw [entry_congr hentries]
  exact cutNoted_entry_own cut_aborted (ownStart_gap.mpr hown)

theorem abort_other (h : (s.line n).engine.exchange = some x) (hown : ¬OwnStart s n x i) : ∃ held,
    (s.abortLine n).entry i = { s.entry i with held := held } := by
  obtain ⟨hentries, -⟩ := abort_settled h
  rw [entry_congr hentries]
  exact cutNoted_entry_other cut_aborted (mt ownStart_gap.mp hown)

theorem abort_completed (h : (s.line n).engine.exchange = some x) {record : CaptureRecord} {k : Nat}
    (hopened : s.capture.state = .opened record k) (hmark : x.work.mark = some k) :
    CaptureCompleted s (s.abortLine n) record x.work.entry (.outcome .aborted) := by
  obtain ⟨hentries, -, -, -, hflags, hcapture⟩ := abort_settled h
  have hnoted : CaptureCompleted s (abortNoted s n x) record x.work.entry (.outcome .aborted) :=
    completed_before (cutNoted_completed (s := s.setEngine n .gap) cut_aborted hopened hmark) rfl rfl rfl rfl
  have ⟨hidle, _⟩ := hnoted
  exact completed_after hnoted (hcapture (by rw [hidle]; exact nofun)) hflags (by rw [entry_congr hentries])

/-- The answer to an aborted pass-through request (R140). -/
theorem abort_answer {r : PassRequest} (h : (s.line n).engine.exchange = some x) (hw : x.work = .passThrough r) :
    AnswerPlaced s (s.abortLine n) n (outcomeFrame s .aborted r) := by
  obtain ⟨-, htx, ⟨stops, hline⟩, -⟩ := abort_settled h
  obtain ⟨polls, hnoted, -⟩ := abortNoted_line s n x
  have hframe : outcomeFrame (abortNoted s n x) .aborted r = outcomeFrame s .aborted r :=
    passAnswer_congr (kept_abortNoted s n x) r .aborted []
  have hplaced := answerPlaced_passAnswerOut (abortNoted s n x) n (outcomeFrame s .aborted r)
  rw [hw, clientEnd_passAborted, hframe] at htx hline
  unfold AnswerPlaced at hplaced ⊢
  rw [htx, hline]
  rw [hnoted, (abortNoted_only s n x).tx] at hplaced
  exact hplaced

/-- Bridge work leaves the line in GAP, no answer owed. -/
theorem abort_released (h : (s.line n).engine.exchange = some x) (hw : ∀ r, x.work ≠ .passThrough r) :
    ((s.abortLine n).line n).engine = .gap ∧ ((s.abortLine n).line n).backlog = (s.line n).backlog ∧
      (s.abortLine n).tx = s.tx := by
  obtain ⟨-, htx, ⟨stops, hline⟩, -⟩ := abort_settled h
  obtain ⟨polls, hnoted, -⟩ := abortNoted_line s n x
  obtain ⟨honly, stops', -, hclient⟩ := clientEnd_bridge_line hw (abortNoted s n x) n .aborted
  rw [hline, hclient, hnoted, htx, honly.tx, (abortNoted_only s n x).tx]
  exact ⟨rfl, rfl, rfl⟩

/-- A stop is put back behind the control queue (R148). -/
theorem abort_putBack {c : ControlRequest} (h : (s.line n).engine.exchange = some x) (hw : x.work = .control c)
    (hkind : c.kind = .stopTest) (hroom : (s.line n).control.length < 4) : ∃ mark stops,
    ((s.abortLine n).line n).control =
      (s.line n).control ++ [{ kind := .stopTest, entry := c.entry, node := c.node, mark := mark }] ++ stops := by
  obtain ⟨-, -, ⟨stops, hline⟩, -⟩ := abort_settled h
  obtain ⟨polls, hnoted, -⟩ := abortNoted_line s n x
  rw [hw, clientEnd_putBack cut_aborted hkind (by rw [hnoted]; exact hroom), joinControl_line, hnoted] at hline
  exact ⟨_, stops, by rw [hline]⟩

/-- A poll of a TESTING entry joins again (R97). -/
theorem abort_rejoins {p : PollRequest} {u : CurrentTest} (h : (s.line n).engine.exchange = some x)
    (hw : x.work = .poll p) (hplace : s.findPlace n x.node = some i) (hu : (s.entry i).state = .testing u) :
    ∃ q ∈ ((s.abortLine n).line n).polls, q.entry = i := by
  obtain ⟨-, -, ⟨stops, hline⟩, -⟩ := abort_settled h
  obtain ⟨-, hn, -⟩ := findPlace_some hplace
  have hmonitored : monitored (s.setEngine n .gap) n x .aborted = (s.setEngine n .gap).joinPoll i :=
    monitored_poll cut_aborted hw hplace hu
  obtain ⟨q, hq, hentry⟩ := joinPoll_waits (s.setEngine n .gap) i
  refine ⟨q, ?_, hentry⟩
  have hpolls : ((abortNoted s n x).line n).polls = (((s.setEngine n .gap).joinPoll i).line n).polls := by
    rw [abortNoted, cutNoted, line_congr (captureEnd_lines _ _ _ _), hmonitored]
  have hclient : (abortNoted s n x).clientEnd n x.work .aborted = abortNoted s n x := by rw [hw]; rfl
  rw [hline, hclient, hpolls]
  rwa [show (s.setEngine n .gap).entry i = s.entry i from rfl, hn] at hq

end Abort

/-- An answer behind work that keeps the tables and the map. -/
theorem answered_kept {s a t : State} {who : Requester} {request : Nat} {code : MgmtCode} {fields : List Byte}
    (h : Answered a t who request code fields) (hkept : Kept s a) : SameTables s t ∧ SameMap s t := by
  rw [h.1]
  exact ⟨⟨hkept.groups, hkept.criteria, hkept.policy, hkept.rows, hkept.blackouts, hkept.settings, hkept.lineSettings⟩,
    hkept.map⟩

theorem lineAbort_eq {s : State} {who : Requester} {k : Nat} (h : s.mgmt = .working who (.request (.lineAbort k))) :
    exec .lineAbort s = .next (s.lineAbort who k) := by
  change execLineAbort s = _
  rw [execLineAbort, inHand_of_working h]

/-- Settles O33: the command's answer, and behind it the end of the exchange. -/
theorem lineAbort : Obligations.LineAbort := by
  intro s who k hmgmt
  have hrun := lineAbort_eq hmgmt
  refine ⟨fun hk => ⟨_, hrun, ?_⟩, fun h => ?_⟩
  · have hbeyond : s.lineAbort who k = s.finish who 24 .indexRange [] := dif_neg (by omega)
    rw [hbeyond]
    exact finish_answered s who 24 .indexRange []
  · intro n l answer
    have habort : s.lineAbort who k = (s.abortLine n).finish who 24 .ok [] := dif_pos h
    rw [habort] at hrun
    refine ⟨fun hnone => ⟨_, hrun, ?_⟩, fun x hx => ?_⟩
    · have hsame : s.abortLine n = s := by rw [State.abortLine, hnone]
      rw [hsame]
      exact finish_answered s who 24 .ok []
    · have hkept := kept_abortLine s n
      have hanswered := finish_answered (s.abortLine n) who 24 .ok []
      have hframe : answerFrame (s.abortLine n) who 24 .ok [] = answer := by
        dsimp only [answer]
        unfold answerFrame
        rw [hkept.strap, hkept.settings]
      have hlines := answered_lines hanswered
      have hentries := answered_entries hanswered
      obtain ⟨-, -, hcapture, hflags⟩ := answered_rest hanswered
      obtain ⟨htables, hmap⟩ := answered_kept hanswered hkept
      obtain ⟨-, hfree, -⟩ := hanswered
      rw [hframe] at hfree
      obtain ⟨-, -, -, hothers, -⟩ := abort_settled hx
      refine ⟨_, hrun, ?_⟩
      generalize (s.abortLine n).finish who 24 .ok [] = t at *
      have hline (m : LineId) : t.line m = (s.abortLine n).line m := line_congr hlines m
      have hentry (i : EntryId) : t.entry i = (s.abortLine n).entry i := entry_congr hentries i
      refine ⟨?_, fun m hm => ?_, htables, hmap, fun i hi => ?_, fun i u hname hplace hu hsent => ?_,
        fun i u hu hown => ?_, fun record mark hopened hmark => ?_, fun r hw => ⟨fun hb htx => ?_, fun hheld => ?_⟩,
        fun hw => ?_, fun c hw hkind hroom => ?_, fun p i u hw hplace hu => ?_⟩
      · rw [hline]
        exact abort_pass hx
      · rw [hline]
        exact hothers m hm
      · obtain ⟨held, he⟩ := abort_other hx fun ⟨_, _, u, hu, _⟩ => hi u hu
        rw [hentry, he]
        exact ⟨rfl, rfl⟩
      · obtain ⟨held, he⟩ := abort_own hx ⟨hname, hplace, u, hu, hsent⟩
        rw [hentry, he]
        exact ⟨rfl, rfl, rfl⟩
      · obtain ⟨held, he⟩ := abort_other (i := i) hx fun ⟨hname, hplace, v, hv, hsent⟩ => by
          rw [EntryState.pending.inj (hu.symm.trans hv)] at hown
          exact hown ⟨hname, hplace, hsent⟩
        rw [hentry, he]
        exact ⟨hu, rfl⟩
      · exact completed_after (abort_completed hx hopened hmark) hcapture (flagsStay_of_eq hflags) (by rw [hentry])
      · obtain ⟨hplaced, -⟩ := abort_answer hx hw
        obtain ⟨htx', hengine, hbacklog⟩ := hplaced hb (by omega)
        rw [hline]
        obtain ⟨ht, -⟩ := hfree (by rw [htx', List.length_append]; exact Nat.succ_lt_succ htx)
        exact ⟨by rw [ht, htx', List.append_assoc]; rfl, hengine, hbacklog⟩
      · obtain ⟨-, hplaced⟩ := abort_answer hx hw
        obtain ⟨-, hengine, hbacklog⟩ := hplaced hheld
        rw [hline]
        exact ⟨hengine, hbacklog⟩
      · obtain ⟨hengine, hbacklog, htx⟩ := abort_released hx hw
        rw [htx] at hfree
        rw [hline]
        exact ⟨hengine, hbacklog, fun h => (hfree h).1⟩
      · rw [hline]
        exact abort_putBack hx hw hkind hroom
      · rw [hline]
        exact abort_rejoins hx hw hplace hu

end Sys2Proof.Aborts
end

section
/-! A line-supply fault (R92, R97, R103, R137, R138, R146, R166, R167). -/

namespace Sys2Proof.SupplyFaults

open Sys2Proof Sys2Proof.Machine Sys2Proof.Machine.Safety Sys2Proof.Laws Sys2Proof.Walks Sys2Proof.DeviceLaws
  Sys2Proof.LineOrder Sys2Proof.EntryOrder Sys2Proof.SchedulingPass Sys2Proof.LineService Sys2Proof.Captures
  Sys2Proof.ExchangeEnds Sys2Proof.OwnEntry Sys2Proof.Losses Sys2Proof.Attempts Sys2Proof.Resets Sys2Proof.Supply
  Sys2Proof.CutExchanges

/-! ### A start that waits unsent, dropped (R146) -/

section Dropped

/-- The entry of an unsent start that a fault removes. -/
def dropped (e : Entry) : Entry :=
  match e.state with
  | .pending u => if u.startSent then e else { e with state := .ready, lastBlock := some .lineDown }
  | _ => e

theorem dropped_unsent {e : Entry} {u : CurrentTest} (h : e.state = .pending u) (hsent : u.startSent = false) :
    dropped e = { e with state := .ready, lastBlock := some .lineDown } := by
  unfold dropped
  rw [h]
  exact if_neg (by rw [hsent]; exact Bool.false_ne_true)

theorem dropped_other {e : Entry} (h : ∀ u, e.state = .pending u → u.startSent = true) : dropped e = e := by
  unfold dropped
  split
  · next u hu => exact if_pos (h u hu)
  · rfl

theorem dropped_held (e : Entry) (held : Bool) : dropped { e with held := held } = { dropped e with held := held } := by
  unfold dropped
  dsimp only
  split
  · split
    · rfl
    · rfl
  · rfl

theorem dropped_dropped (e : Entry) : dropped (dropped e) = dropped e := by
  by_cases h : ∃ u, e.state = .pending u ∧ u.startSent = false
  · obtain ⟨u, hu, hsent⟩ := h
    rw [dropped_unsent hu hsent]
    exact dropped_other nofun
  · have hother : dropped e = e := dropped_other fun u hu => by
      rw [← Bool.not_eq_false]
      exact fun hsent => h ⟨u, hu, hsent⟩
    rw [hother, hother]

theorem takeBackUnsent_entry (s : State) (i j : EntryId) :
    (s.takeBackUnsent j .lineDown).entry i = if j = i then dropped (s.entry i) else s.entry i := by
  unfold State.takeBackUnsent
  split
  · next u hu =>
    split
    · next hsent =>
      split
      · next h =>
        subst h
        refine (dropped_other fun v hv => ?_).symm
        rw [← EntryState.pending.inj (hu.symm.trans hv)]
        exact hsent
      · rfl
    · next hsent =>
      rw [takeBack_entry]
      split
      · next h =>
        subst h
        rw [dropped_unsent hu (by rw [← Bool.not_eq_true]; exact hsent)]
      · rfl
  · next hother =>
    split
    · next h =>
      subst h
      exact (dropped_other fun v hv => absurd hv (hother v)).symm
    · rfl

theorem takeBackUnsent_rest (s : State) (j : EntryId) (r : BlockReason) : (s.takeBackUnsent j r).lines = s.lines ∧
    (s.takeBackUnsent j r).tx = s.tx ∧ (s.takeBackUnsent j r).capture = s.capture ∧
    (s.takeBackUnsent j r).flags = s.flags ∧ ∀ i, ((s.takeBackUnsent j r).entry i).held = (s.entry i).held := by
  unfold State.takeBackUnsent
  split
  · split
    · exact ⟨rfl, rfl, rfl, rfl, fun _ => rfl⟩
    · refine ⟨rfl, rfl, rfl, rfl, fun i => ?_⟩
      rw [takeBack_entry]
      split
      · next h => rw [h]
      · rfl
  · exact ⟨rfl, rfl, rfl, rfl, fun _ => rfl⟩

/-- Dropping several requests, seen from one entry: dropped once it is hit, but for a hold. -/
theorem foldl_dropped {α : Type} {i : EntryId} {f : State → α → State} {hits : α → Bool}
    (h : ∀ s a, ∃ held, (f s a).entry i =
      { (if hits a = true then dropped (s.entry i) else s.entry i) with held := held }) (l : List α) (s : State) :
    ∃ held, (l.foldl f s).entry i =
      { (if l.any hits = true then dropped (s.entry i) else s.entry i) with held := held } := by
  induction l generalizing s with
  | nil => exact ⟨(s.entry i).held, rfl⟩
  | cons a l ih =>
    obtain ⟨held, ha⟩ := h s a
    obtain ⟨held', hl⟩ := ih (f s a)
    refine ⟨held', ?_⟩
    rw [List.foldl_cons, hl, ha, List.any_cons]
    cases hits a with
    | true =>
      cases l.any hits with
      | true => simp [dropped_held, dropped_dropped]
      | false => simp
    | false =>
      cases l.any hits with
      | true => simp [dropped_held]
      | false => simp

end Dropped

/-! ### A capture through the fault -/

section Capture

variable (record : CaptureRecord) (k : Nat)

/-- The capture completed LINE_DOWN. -/
def DownDone (s : State) : Prop :=
  s.capture.state = .idle (some { record with answer := some (.outcome .lineDown) }) ∧ s.flag .captureHit = true

/-- An OPEN capture stays or completes LINE_DOWN, a completed one stays. -/
def Ends (s t : State) : Prop :=
  (s.capture.state = .opened record k → t.capture.state = .opened record k ∨ DownDone record t) ∧
    (DownDone record s → DownDone record t)

/-- With the capture IDLE it and the holds are left. -/
def Over (s t : State) : Prop := ∀ a, s.capture.state = .idle a →
  t.capture = s.capture ∧ ∀ j, (t.entry j).held = (s.entry j).held

/-- The part of one operation in a recorded request's end. -/
structure CaptureStep (s t : State) : Prop where
  ends  : Ends record k s t
  left  : Over s t
  flags : FlagsStay s t

variable {record k}

theorem CaptureStep.refl (s : State) : CaptureStep record k s s :=
  ⟨⟨.inl, id⟩, fun _ _ => ⟨rfl, fun _ => rfl⟩, .refl s⟩

theorem CaptureStep.trans {s t u : State} (h : CaptureStep record k s t) (h' : CaptureStep record k t u) :
    CaptureStep record k s u := by
  obtain ⟨⟨hopen, hdone⟩, hover, hflags⟩ := h
  obtain ⟨⟨hopen', hdone'⟩, hover', hflags'⟩ := h'
  refine ⟨⟨fun ho => (hopen ho).elim hopen' fun hd => .inr (hdone' hd), hdone' ∘ hdone⟩, fun a ha => ?_,
    hflags.trans hflags'⟩
  obtain ⟨hc, hh⟩ := hover a ha
  obtain ⟨hc', hh'⟩ := hover' a (by rw [hc, ha])
  exact ⟨hc'.trans hc, fun j => (hh' j).trans (hh j)⟩

theorem captureStep_of {s t : State} (hc : CaptureFixed s t) (hf : FlagsStay s t)
    (hh : ∀ j, (t.entry j).held = (s.entry j).held) : CaptureStep record k s t := by
  refine ⟨⟨fun ho => .inl ?_, fun ⟨hidle, hhit⟩ => ⟨?_, hf _ hhit⟩⟩, fun a ha => ⟨?_, hh⟩, hf⟩
  · rw [hc (by rw [ho]; exact nofun), ho]
  · rw [hc (by rw [hidle]; exact nofun), hidle]
  · exact hc (by rw [ha]; exact nofun)

theorem captureStep_captureEnd (s : State) (m : Option Nat) (i : EntryId) :
    CaptureStep record k s (s.captureEnd m i (.outcome .lineDown)) := by
  have hidle {a : Option CaptureRecord} (h : s.capture.state = .idle a) :
      s.captureEnd m i (.outcome .lineDown) = s := captureEnd_other (recorded_idle h m) i _
  refine ⟨⟨fun ho => ?_, fun hd => ?_⟩, fun a ha => ?_, flagsStay_captureEnd s m i _⟩
  · by_cases hm : m = some k
    · obtain ⟨hstate, hhit, -⟩ := captureEnd_completed ho i (.outcome .lineDown)
      rw [hm]
      exact .inr ⟨hstate, hhit⟩
    · rw [captureEnd_other (by rw [← Bool.not_eq_true, recorded_opened ho]; exact hm)]
      exact .inl ho
  · have ⟨hstate, _⟩ := hd
    rw [hidle hstate]
    exact hd
  · rw [hidle ha]
    exact ⟨rfl, fun _ => rfl⟩

/-- A recorded request among the removed ones completes the capture. -/
theorem foldl_downDone {α : Type} {f : State → α → State} (h : ∀ s a, CaptureStep record k s (f s a)) {a : α}
    (ha : ∀ s, s.capture.state = .opened record k → DownDone record (f s a)) {l : List α} (hl : a ∈ l) {s : State}
    (hs : s.capture.state = .opened record k ∨ DownDone record s) : DownDone record (l.foldl f s) := by
  obtain ⟨pre, post, rfl⟩ := List.append_of_mem hl
  rw [List.foldl_append, List.foldl_cons]
  obtain ⟨⟨hopen, hdone⟩, -, -⟩ := foldl_walk CaptureStep.refl CaptureStep.trans h pre s
  obtain ⟨⟨-, hstays⟩, -, -⟩ := foldl_walk CaptureStep.refl CaptureStep.trans h post (f (pre.foldl f s) a)
  refine hstays ?_
  rcases hs.elim hopen fun hd => .inr (hdone hd) with ho | hd
  · exact ha _ ho
  · obtain ⟨⟨-, hkeeps⟩, -, -⟩ := h (pre.foldl f s) a
    exact hkeeps hd

end Capture

/-! ### The removed requests -/

section Removed

theorem dropPassDown_eq (n : LineId) (s : State) (r : PassRequest) : s.dropPassDown n r =
    (if r.name.isStart = true then (s.joinBacklog n (outcomeFrame s .lineDown r)).takeBackUnsent r.entry .lineDown
      else s.joinBacklog n (outcomeFrame s .lineDown r)).captureEnd r.mark r.entry (.outcome .lineDown) := rfl

/-- One request dropped: its answer joins the backlog, and what else changes is its entry and the capture. -/
theorem dropPassDown_rules (n : LineId) (s : State) (r : PassRequest) : OnlyLine n s (s.dropPassDown n r) ∧
    (s.dropPassDown n r).line n =
      { s.line n with backlog := (s.line n).backlog ++ [outcomeFrame s .lineDown r] } ∧
    (∀ record k, CaptureStep record k s (s.dropPassDown n r)) ∧
    ∀ i, ∃ held, (s.dropPassDown n r).entry i =
      { (if (r.name.isStart && r.entry == i) = true then dropped (s.entry i) else s.entry i) with held := held } := by
  have hjoin : OnlyLine n s (s.joinBacklog n (outcomeFrame s .lineDown r)) := onlyLine_setLine n s _
  rw [dropPassDown_eq]
  generalize hb : s.joinBacklog n (outcomeFrame s .lineDown r) = b at hjoin ⊢
  have hline : b.line n = { s.line n with backlog := (s.line n).backlog ++ [outcomeFrame s .lineDown r] } := by
    rw [← hb, joinBacklog_line_self]
  have hstep (record : CaptureRecord) (k : Nat) : CaptureStep record k s b := by
    rw [← hb]
    exact captureStep_of (captureFixed_of_eq rfl) (flagsStay_of_eq rfl) fun _ => rfl
  have hentry (i : EntryId) : b.entry i = s.entry i := by rw [← hb]; rfl
  clear hb
  obtain ⟨hlines, htx, hcapture, hflags, hheld⟩ := takeBackUnsent_rest b r.entry .lineDown
  generalize hd : (if r.name.isStart = true then b.takeBackUnsent r.entry .lineDown else b) = d
  have hrest : d.lines = b.lines ∧ d.tx = b.tx ∧ ∀ record k, CaptureStep record k b d := by
    rw [← hd]
    split
    · exact ⟨hlines, htx, fun _ _ => captureStep_of (captureFixed_of_eq hcapture) (flagsStay_of_eq hflags) hheld⟩
    · exact ⟨rfl, rfl, fun _ _ => .refl b⟩
  obtain ⟨hdlines, hdtx, hdstep⟩ := hrest
  refine ⟨(hjoin.trans (onlyLine_of_eq hdlines hdtx)).trans (onlyLine_captureEnd n _ _ _ _), ?_,
    fun record k => ((hstep record k).trans (hdstep record k)).trans (captureStep_captureEnd _ _ _), fun i => ?_⟩
  · rw [line_congr (captureEnd_lines _ _ _ _), line_congr hdlines, hline]
  · obtain ⟨held, he⟩ := heldAs_eq (holds_captureEnd d r.mark r.entry (.outcome .lineDown) i)
    have hown : d.entry i = if (r.name.isStart && r.entry == i) = true then dropped (s.entry i) else s.entry i := by
      rw [← hd]
      cases r.name.isStart with
      | true => rw [if_pos rfl, takeBackUnsent_entry, hentry]; simp
      | false => rw [if_neg Bool.false_ne_true, hentry]; rfl
    exact ⟨held, by rw [he, hown]⟩

/-- One start of the bridge dropped. -/
theorem dropStartDown_rules (s : State) (c : ControlRequest) : (s.dropStartDown c).lines = s.lines ∧
    (s.dropStartDown c).tx = s.tx ∧ (∀ record k, CaptureStep record k s (s.dropStartDown c)) ∧
    ∀ i, ∃ held, (s.dropStartDown c).entry i =
      { (if (c.entry == i) = true then dropped (s.entry i) else s.entry i) with held := held } := by
  obtain ⟨hlines, htx, hcapture, hflags, hheld⟩ := takeBackUnsent_rest s c.entry .lineDown
  have hstep (record : CaptureRecord) (k : Nat) : CaptureStep record k s (s.takeBackUnsent c.entry .lineDown) :=
    captureStep_of (captureFixed_of_eq hcapture) (flagsStay_of_eq hflags) hheld
  refine ⟨(captureEnd_lines _ _ _ _).trans hlines, (captureEnd_tx _ _ _ _).trans htx,
    fun record k => (hstep record k).trans (captureStep_captureEnd _ _ _), fun i => ?_⟩
  obtain ⟨held, he⟩ := heldAs_eq (holds_captureEnd (s.takeBackUnsent c.entry .lineDown) c.mark c.entry
    (.outcome .lineDown) i)
  refine ⟨held, he.trans ?_⟩
  rw [takeBackUnsent_entry]
  simp

theorem outcomeFrame_congr {s t : State} (h : Kept s t) (code : LampCode) : outcomeFrame t code = outcomeFrame s code :=
  funext fun r => passAnswer_congr h r code []

/-- The waiting requests dropped, their answers in order. -/
theorem dropPassDown_fold_line (n : LineId) (l : List PassRequest) (s : State) :
    (l.foldl (State.dropPassDown n) s).line n =
      { s.line n with backlog := (s.line n).backlog ++ l.map (outcomeFrame s .lineDown) } := by
  induction l generalizing s with
  | nil => rw [List.foldl_nil, List.map_nil, List.append_nil]
  | cons r l ih =>
    obtain ⟨-, hline, -⟩ := dropPassDown_rules n s r
    rw [List.foldl_cons, ih, hline, outcomeFrame_congr (kept_dropPassDown n s r), List.map_cons]
    simp only [List.append_assoc, List.singleton_append]

theorem dropStartDown_fold_lines (l : List ControlRequest) (s : State) :
    (l.foldl State.dropStartDown s).lines = s.lines ∧ (l.foldl State.dropStartDown s).tx = s.tx :=
  foldl_walk (R := fun s t => t.lines = s.lines ∧ t.tx = s.tx) (fun _ => ⟨rfl, rfl⟩)
    (fun h h' => ⟨h'.1.trans h.1, h'.2.trans h.2⟩) (fun s c => by
      obtain ⟨hlines, htx, -⟩ := dropStartDown_rules s c
      exact ⟨hlines, htx⟩) l s

end Removed

/-! ### The line taken DOWN, the exchange in flight ended -/

section Ended

variable {s : State} {n : LineId} {x : Exchange} {i : EntryId}

theorem cut_lineDown : ExchangeEnd.lineDown = .aborted ∨ ExchangeEnd.lineDown = .lineDown := .inr rfl

/-- A line taken DOWN. -/
def downLine (l : LineEngine) : LineEngine :=
  { l with engine := .down, supplyOn := false, retryTimer := some 10, senseDue := false }

/-- The line taken DOWN, the flag raised. -/
def downState (s : State) (n : LineId) : State := (s.setLine n (downLine (s.line n))).raise .lineFault

theorem downState_line (s : State) (n : LineId) : (downState s n).line n = downLine (s.line n) := by
  rw [downState, raise_line, setLine_line_self]

theorem downState_entry (s : State) (n : LineId) (i : EntryId) : (downState s n).entry i = s.entry i := by
  rw [downState, raise_entry]
  rfl

theorem downState_capture (s : State) (n : LineId) : (downState s n).capture = s.capture := by
  rw [downState, raise_capture]
  rfl

theorem downState_flags (s : State) (n : LineId) : FlagsStay s (downState s n) :=
  (flagsStay_of_eq (t := s.setLine n (downLine (s.line n))) rfl).trans (flagsStay_raise _ _)

theorem downState_only (s : State) (n : LineId) : OnlyLine n s (downState s n) :=
  (onlyLine_setLine n s _).trans (onlyLine_raise n _ _)

theorem kept_downState (s : State) (n : LineId) : Kept s (downState s n) :=
  (kept_setLine s n _ (by rfl)).trans (kept_raise _ _)

/-- The exchange in flight ended LINE_DOWN. -/
def endedState (s : State) (n : LineId) : State :=
  match (s.line n).engine.exchange with
  | some x => (downState s n).handEnd n x .lineDown
  | none => downState s n

theorem endedState_some (h : (s.line n).engine.exchange = some x) :
    endedState s n = (cutNoted (downState s n) n x .lineDown).clientEnd n x.work .lineDown := by
  unfold endedState
  rw [h]
  rfl

theorem endedState_none (h : (s.line n).engine.exchange = none) : endedState s n = downState s n := by
  unfold endedState
  rw [h]

theorem kept_endedState (s : State) (n : LineId) : Kept s (endedState s n) := by
  unfold endedState
  split
  · exact (kept_downState s n).trans (kept_handEnd _ _ _ _)
  · exact kept_downState s n

theorem resetPass_of_pass {l : LineEngine} {r : PassRequest} (h : l.engine.exchange = some x)
    (hw : x.work = .passThrough r) : l.resetPass = r :: l.pass := by
  obtain ⟨work, node, bytes, allowed, made, bad⟩ := x
  subst hw
  rw [LineEngine.resetPass, h]

theorem resetPass_of_bridge {l : LineEngine} (h : ∀ x r, l.engine.exchange = some x → x.work ≠ .passThrough r) :
    l.resetPass = l.pass := by
  unfold LineEngine.resetPass
  split
  · next hx => exact absurd rfl (h _ _ hx)
  · rfl

/-- The line behind the end: the answer of the exchange, a stop put back, a poll joined again. -/
structure EndedLine (s : State) (n : LineId) (t : State) (answered : List PassRequest) (back : List ControlRequest)
    (polls : List PollRequest) : Prop where
  line    : t.line n = { downLine (s.line n) with
    backlog := (s.line n).backlog ++ answered.map (outcomeFrame s .lineDown)
    control := (s.line n).control ++ back, polls := polls }
  others  : OnlyLine n s t
  pass    : (s.line n).resetPass = answered ++ (s.line n).pass
  stops   : ∀ c ∈ back, c.kind = .stopTest
  kept    : ∀ p ∈ (s.line n).polls, p ∈ polls
  putBack : ∀ x c, (s.line n).engine.exchange = some x → x.work = .control c → c.kind = .stopTest →
    (s.line n).control.length < 4 → ∃ d ∈ back, d.kind = .stopTest ∧ d.entry = c.entry ∧ d.node = c.node
  rejoins : ∀ x p i u, (s.line n).engine.exchange = some x → x.work = .poll p → s.findPlace n x.node = some i →
    (s.entry i).state = .testing u → ∃ q ∈ polls, q.entry = i

theorem endedLine_none (h : (s.line n).engine.exchange = none) :
    EndedLine s n (endedState s n) [] [] (s.line n).polls where
  line := by
    rw [endedState_none h, downState_line, List.map_nil, List.append_nil, List.append_nil]
    rfl
  others := by
    rw [endedState_none h]
    exact downState_only s n
  pass := resetPass_of_bridge fun x r hx => by rw [h] at hx; cases hx
  stops := nofun
  kept := fun _ => id
  putBack := fun x c hx => by rw [h] at hx; cases hx
  rejoins := fun x p i u hx => by rw [h] at hx; cases hx

theorem downNoted_line (s : State) (n : LineId) (x : Exchange) : ∃ polls,
    (cutNoted (downState s n) n x .lineDown).line n = { downLine (s.line n) with polls := polls } ∧
      ∀ p ∈ (s.line n).polls, p ∈ polls := by
  obtain ⟨polls, hline, hmem⟩ := cutNoted_line (s := downState s n) (n := n) (x := x) cut_lineDown
  rw [downState_line] at hline hmem
  exact ⟨polls, hline, hmem⟩

theorem downNoted_only (s : State) (n : LineId) (x : Exchange) :
    OnlyLine n s (cutNoted (downState s n) n x .lineDown) :=
  (downState_only s n).trans (cutNoted_only cut_lineDown)

theorem endedLine_pass {r : PassRequest} (h : (s.line n).engine.exchange = some x) (hw : x.work = .passThrough r) :
    ∃ polls, EndedLine s n (endedState s n) [r] [] polls := by
  obtain ⟨polls, hline, hmem⟩ := downNoted_line s n x
  have hframe : outcomeFrame (cutNoted (downState s n) n x .lineDown) .lineDown = outcomeFrame s .lineDown :=
    outcomeFrame_congr ((kept_downState s n).trans (kept_cutNoted _ _ _ _)) _
  have hended : endedState s n =
      (cutNoted (downState s n) n x .lineDown).joinBacklog n (outcomeFrame s .lineDown r) := by
    rw [endedState_some h, hw, clientEnd_passDown, hframe]
  have hwork {w : Work} {x' : Exchange} (hx : (s.line n).engine.exchange = some x') (hw' : x'.work = w) :
      Work.passThrough r = w := by
    rw [← hw', ← hw, Option.some.inj (h.symm.trans hx)]
  refine ⟨polls, ?_, ?_, resetPass_of_pass h hw, nofun, hmem, fun x' c hx hc => ?_, fun x' p i u hx hp => ?_⟩
  · rw [hended, joinBacklog_line_self, hline, List.append_nil]
    rfl
  · rw [hended]
    exact (downNoted_only s n x).trans (onlyLine_setLine n _ _)
  · cases hwork hx hc
  · cases hwork hx hp

theorem endedLine_bridge (h : (s.line n).engine.exchange = some x) (hw : ∀ r, x.work ≠ .passThrough r) :
    ∃ back polls, EndedLine s n (endedState s n) [] back polls := by
  obtain ⟨polls, hline, hmem⟩ := downNoted_line s n x
  obtain ⟨honly, back, hstops, hclient⟩ :=
    clientEnd_bridge_line hw (cutNoted (downState s n) n x .lineDown) n .lineDown
  rw [← endedState_some h] at honly hclient
  rw [hline] at hclient
  refine ⟨back, polls, ?_, (downNoted_only s n x).trans honly, resetPass_of_bridge fun x' r hx => ?_, hstops, hmem,
    fun x' c hx hc hkind hroom => ?_, fun x' p i u hx hp hplace hu => ?_⟩
  · rw [hclient, List.map_nil, List.append_nil]
    rfl
  · rw [← Option.some.inj (h.symm.trans hx)]
    exact hw r
  · obtain rfl := Option.some.inj (h.symm.trans hx)
    have hput := endedState_some h
    rw [hc, clientEnd_putBack cut_lineDown hkind (by rw [hline]; exact hroom)] at hput
    rw [hput, joinControl_line, hline] at hclient
    rw [← List.append_cancel_left (congrArg LineEngine.control hclient)]
    exact ⟨_, List.mem_singleton_self _, rfl, rfl, rfl⟩
  · obtain rfl := Option.some.inj (h.symm.trans hx)
    obtain ⟨-, hn, -⟩ := findPlace_some hplace
    have hentry := downState_entry s n i
    have hmonitored : monitored (downState s n) n x .lineDown = (downState s n).joinPoll i :=
      monitored_poll cut_lineDown hp ((findPlace_of_sameMap (kept_downState s n).map n x.node).trans hplace)
        (by rw [hentry]; exact hu)
    obtain ⟨q, hq, hqi⟩ := joinPoll_waits (downState s n) i
    refine ⟨q, ?_, hqi⟩
    have hpolls : polls = (((downState s n).joinPoll i).line n).polls := by
      have hnoted := congrArg LineEngine.polls hline
      rw [cutNoted, line_congr (captureEnd_lines _ _ _ _), hmonitored] at hnoted
      exact hnoted.symm
    rw [hentry, hn] at hq
    rw [hpolls]
    exact hq

theorem endedLine_exists (s : State) (n : LineId) : ∃ answered back polls,
    EndedLine s n (endedState s n) answered back polls := by
  cases h : (s.line n).engine.exchange with
  | none => exact ⟨_, _, _, endedLine_none h⟩
  | some x =>
    by_cases hw : ∃ r, x.work = .passThrough r
    · obtain ⟨r, hr⟩ := hw
      obtain ⟨polls, hline⟩ := endedLine_pass h hr
      exact ⟨_, _, _, hline⟩
    · obtain ⟨back, polls, hline⟩ := endedLine_bridge h (not_exists.mp hw)
      exact ⟨_, _, _, hline⟩

/-- The exchange in flight is the own start of the entry. -/
def OwnInFlight (s : State) (n : LineId) (i : EntryId) : Prop :=
  ∃ x, (s.line n).engine.exchange = some x ∧ OwnStart s n x i

theorem ownStart_down : OwnStart (downState s n) n x i ↔ OwnStart s n x i := by
  unfold OwnStart
  rw [findPlace_of_sameMap (kept_downState s n).map, downState_entry]

theorem endedState_entries (h : (s.line n).engine.exchange = some x) :
    (endedState s n).entries = (cutNoted (downState s n) n x .lineDown).entries := by
  obtain ⟨hentries, -⟩ := clientEnd_rest cut_lineDown (cutNoted (downState s n) n x .lineDown) n x.work
  rw [endedState_some h]
  exact hentries

theorem ended_own (h : OwnInFlight s n i) : ∃ held, (endedState s n).entry i =
    { s.entry i with state := .ready, lastBlock := some .lineDown, held := held } := by
  obtain ⟨x, hx, hown⟩ := h
  obtain ⟨held, he⟩ := cutNoted_entry_own cut_lineDown (ownStart_down.mpr hown)
  refine ⟨held, ?_⟩
  rw [entry_congr (endedState_entries hx), he, downState_entry]
  rfl

theorem ended_other (h : ¬OwnInFlight s n i) : ∃ held, (endedState s n).entry i = { s.entry i with held := held } := by
  cases hx : (s.line n).engine.exchange with
  | none =>
    rw [endedState_none hx, downState_entry]
    exact ⟨_, rfl⟩
  | some x =>
    obtain ⟨held, he⟩ := cutNoted_entry_other (s := downState s n) (n := n) (x := x) (i := i) cut_lineDown
      fun hown => h ⟨x, hx, ownStart_down.mp hown⟩
    refine ⟨held, ?_⟩
    rw [entry_congr (endedState_entries hx), he, downState_entry]

variable {record : CaptureRecord} {k : Nat}

theorem captureStep_down (s : State) (n : LineId) : CaptureStep record k s (downState s n) :=
  captureStep_of (captureFixed_of_eq (downState_capture s n)) (downState_flags s n) fun j => by rw [downState_entry]

theorem captureStep_client (b : State) (n : LineId) (w : Work) :
    CaptureStep record k b (b.clientEnd n w .lineDown) := by
  obtain ⟨hentries, hflags, hcapture⟩ := clientEnd_rest cut_lineDown b n w
  exact captureStep_of hcapture (flagsStay_of_eq hflags) fun j => by rw [entry_congr hentries]

theorem captureStep_cut (b : State) (n : LineId) (x : Exchange) :
    CaptureStep record k b (cutNoted b n x .lineDown) := by
  have hkept := monitored_kept cut_lineDown b n x
  exact (captureStep_of hkept.capture (flagsStay_of_eq hkept.flags) hkept.held).trans (captureStep_captureEnd _ _ _)

theorem captureStep_ended (s : State) (n : LineId) : CaptureStep record k (downState s n) (endedState s n) := by
  cases hx : (s.line n).engine.exchange with
  | none =>
    rw [endedState_none hx]
    exact .refl _
  | some x =>
    rw [endedState_some hx]
    exact (captureStep_cut _ n x).trans (captureStep_client _ n x.work)

/-- The recorded request in flight completes the capture. -/
theorem ended_completed (h : (s.line n).engine.exchange = some x) (hopened : s.capture.state = .opened record k)
    (hmark : x.work.mark = some k) :
    CaptureCompleted s (endedState s n) record x.work.entry (.outcome .lineDown) := by
  have hnoted : CaptureCompleted s (cutNoted (downState s n) n x .lineDown) record x.work.entry (.outcome .lineDown) :=
    completed_before (cutNoted_completed cut_lineDown (by rw [downState_capture]; exact hopened) hmark)
      (downState_capture s n) (by rw [downState_entry]) (by rw [downState_entry]) (by rw [downState_entry])
  have ⟨hidle, _⟩ := hnoted
  obtain ⟨hentries, hflags, hcapture⟩ := clientEnd_rest cut_lineDown (cutNoted (downState s n) n x .lineDown) n x.work
  rw [endedState_some h]
  exact completed_after hnoted (hcapture (by rw [hidle]; exact nofun)) (flagsStay_of_eq hflags)
    (by rw [entry_congr hentries])

end Ended

end Sys2Proof.SupplyFaults
end

section
/-! A line-supply fault: the requests that wait, and the step as a whole (R146, R166, R167). -/

namespace Sys2Proof.FaultedLine

open Sys2Proof Sys2Proof.Machine Sys2Proof.Machine.Safety Sys2Proof.Laws Sys2Proof.Walks Sys2Proof.DeviceLaws
  Sys2Proof.LineOrder Sys2Proof.EntryOrder Sys2Proof.SchedulingPass Sys2Proof.LineService Sys2Proof.Captures
  Sys2Proof.ExchangeEnds Sys2Proof.OwnEntry Sys2Proof.Losses Sys2Proof.Resets Sys2Proof.Supply
  Sys2Proof.CutExchanges Sys2Proof.SupplyFaults

section Fault

variable {s : State} {n : LineId} {i : EntryId} {u : CurrentTest}

/-- The head-end requests that waited dropped. -/
def passDropped (s : State) (n : LineId) : State :=
  ((endedState s n).line n).pass.foldl (State.dropPassDown n)
    ((endedState s n).setLine n { (endedState s n).line n with pass := [] })

/-- The bridge's starts that waited dropped. -/
def startsDropped (s : State) (n : LineId) : State :=
  (((passDropped s n).line n).control.filter fun c => c.kind.isStart).foldl State.dropStartDown
    ((passDropped s n).setLine n { (passDropped s n).line n with
      control := ((passDropped s n).line n).control.filter fun c => !c.kind.isStart })

/-- The state a fault ends in. -/
def faultState (s : State) (n : LineId) : State := (startsDropped s n).settleLine n

theorem exec_fault (h : (s.line n).engine ≠ .down) : exec (.lineSupplyFault n) s = .next (faultState s n) := by
  have hexec : exec (.lineSupplyFault n) s = .next (s.supplyFault n) := rfl
  rw [hexec]
  exact congrArg Host.Outcome.next (if_neg (mt isDown_iff.mp h))

theorem isStart_false_iff {k : ControlKind} : k.isStart = false ↔ k = .stopTest := by
  cases k with
  | stopTest => simp [ControlKind.isStart]
  | startFunction => simp [ControlKind.isStart]
  | startDuration m => simp [ControlKind.isStart]

/-! ### The lines -/

/-- The line at the end of a fault. -/
structure FaultLine (s : State) (n : LineId) (back stops : List ControlRequest) (polls : List PollRequest) : Prop where
  line    : (faultState s n).line n = { downLine (s.line n) with
    pass := [], polls := polls
    backlog := (s.line n).backlog ++ (s.line n).resetPass.map (outcomeFrame s .lineDown)
    control := (((s.line n).control ++ back).filter fun c => !c.kind.isStart) ++ stops }
  others  : OnlyLine n s (faultState s n)
  settled : ∀ c ∈ stops, c.kind = .stopTest
  entries : (faultState s n).entries = (startsDropped s n).entries
  quiet   : Quiet (startsDropped s n) (faultState s n)

theorem faultLine_of {answered : List PassRequest} {back : List ControlRequest} {polls : List PollRequest}
    (h : EndedLine s n (endedState s n) answered back polls) : ∃ stops, FaultLine s n back stops polls := by
  have hpass : (passDropped s n).line n = { downLine (s.line n) with
      pass := [], control := (s.line n).control ++ back, polls := polls
      backlog := (s.line n).backlog ++ (s.line n).resetPass.map (outcomeFrame s .lineDown) } := by
    have hframe : outcomeFrame ((endedState s n).setLine n { (endedState s n).line n with pass := [] }) .lineDown =
        outcomeFrame s .lineDown := outcomeFrame_congr ((kept_endedState s n).trans (kept_setLine _ n _ (by rfl))) _
    rw [passDropped, dropPassDown_fold_line, setLine_line_self, hframe, h.line, h.pass, List.map_append]
    dsimp only
    rw [List.append_assoc]
    rfl
  obtain ⟨hlines, htx⟩ := dropStartDown_fold_lines
    (((passDropped s n).line n).control.filter fun c => c.kind.isStart)
    ((passDropped s n).setLine n { (passDropped s n).line n with
      control := ((passDropped s n).line n).control.filter fun c => !c.kind.isStart })
  have hstarts : (startsDropped s n).line n = { (passDropped s n).line n with
      control := ((passDropped s n).line n).control.filter fun c => !c.kind.isStart } := by
    rw [startsDropped, line_congr hlines, setLine_line_self]
  have honly : OnlyLine n s (startsDropped s n) := by
    have hwaiting : OnlyLine n ((endedState s n).setLine n { (endedState s n).line n with pass := [] })
        (passDropped s n) := foldl_walk (OnlyLine.refl n) OnlyLine.trans (fun t r => (dropPassDown_rules n t r).1) _ _
    exact (((h.others.trans (onlyLine_setLine n _ _)).trans hwaiting).trans (onlyLine_setLine n _ _)).trans
      (onlyLine_of_eq hlines htx)
  have hbusy : ((startsDropped s n).line n).engine ≠ .idle := by
    rw [hstarts, hpass]
    exact nofun
  obtain ⟨stops, hsettled, hline⟩ := settleLine_busy_line hbusy
  refine ⟨stops, ?_, honly.trans (onlyLine_settleLine _ n), hsettled, settleLine_busy_entries hbusy,
    quiet_lineWork.settleLine _ n⟩
  rw [faultState, hline, hstarts, hpass]

/-! ### The entries -/

/-- An unsent start of the entry waits on the line. -/
def StartQueued (l : LineEngine) (i : EntryId) : Prop :=
  (∃ r ∈ l.pass, r.name.isStart = true ∧ r.entry = i) ∨ ∃ c ∈ l.control, c.kind ≠ .stopTest ∧ c.entry = i

/-- The requests of the line that a fault removes, seen from an entry. -/
def queued (l : LineEngine) (i : EntryId) : Bool :=
  l.pass.any (fun r => r.name.isStart && r.entry == i) ||
    (l.control.filter fun c => c.kind.isStart).any fun c => c.entry == i

theorem queued_iff {l : LineEngine} : queued l i = true ↔ StartQueued l i := by
  simp only [queued, StartQueued, Bool.or_eq_true, List.any_eq_true, Bool.and_eq_true, beq_iff_eq, List.mem_filter]
  refine or_congr_right (exists_congr fun c => ?_)
  rw [and_assoc, ← Bool.not_eq_false c.kind.isStart, isStart_false_iff]

/-- The starts a stop put back does not add to. -/
theorem starts_put_back {l back : List ControlRequest} (h : ∀ c ∈ back, c.kind = .stopTest) :
    ((l ++ back).filter fun c => c.kind.isStart) = l.filter fun c => c.kind.isStart := by
  have hnone : (back.filter fun c => c.kind.isStart) = [] := List.filter_eq_nil_iff.mpr fun c hc => by
    rw [h c hc]
    exact Bool.false_ne_true
  rw [List.filter_append, hnone, List.append_nil]

theorem passDropped_control {answered : List PassRequest} {back : List ControlRequest} {polls : List PollRequest}
    (h : EndedLine s n (endedState s n) answered back polls) :
    (((passDropped s n).line n).control.filter fun c => c.kind.isStart) =
      (s.line n).control.filter fun c => c.kind.isStart := by
  rw [passDropped, dropPassDown_fold_line, setLine_line_self, h.line]
  exact starts_put_back h.stops

/-- An entry at the end of a fault: as the end of the exchange left it, or its waiting start dropped. -/
theorem fault_entry (s : State) (n : LineId) (i : EntryId) : ∃ held, (faultState s n).entry i =
    { (if queued (s.line n) i = true then dropped ((endedState s n).entry i) else (endedState s n).entry i) with
      held := held } := by
  obtain ⟨answered, back, polls, h⟩ := endedLine_exists s n
  obtain ⟨stops, hfault⟩ := faultLine_of h
  obtain ⟨held, hpass⟩ := foldl_dropped (i := i) (fun t r => (dropPassDown_rules n t r).2.2.2 i)
    ((endedState s n).line n).pass ((endedState s n).setLine n { (endedState s n).line n with pass := [] })
  obtain ⟨held', hstarts⟩ := foldl_dropped (i := i) (fun t c => (dropStartDown_rules t c).2.2.2 i)
    (((passDropped s n).line n).control.filter fun c => c.kind.isStart)
    ((passDropped s n).setLine n { (passDropped s n).line n with
      control := ((passDropped s n).line n).control.filter fun c => !c.kind.isStart })
  have hqueue : ((endedState s n).line n).pass = (s.line n).pass := by rw [h.line]; rfl
  change (passDropped s n).entry i = _ at hpass
  change (startsDropped s n).entry i = _ at hstarts
  rw [setLine_entry, hqueue] at hpass
  rw [setLine_entry, hpass, passDropped_control h] at hstarts
  refine ⟨held', (entry_congr hfault.entries i).trans (hstarts.trans ?_)⟩
  unfold queued
  cases (s.line n).pass.any (fun r => r.name.isStart && r.entry == i) with
  | true =>
    cases ((s.line n).control.filter fun c => c.kind.isStart).any (fun c => c.entry == i) with
    | true => simp [dropped_held, dropped_dropped]
    | false => simp
  | false =>
    cases ((s.line n).control.filter fun c => c.kind.isStart).any (fun c => c.entry == i) with
    | true => simp [dropped_held]
    | false => simp

/-- An entry without a start of its own there is left, but for a hold. -/
theorem fault_left (hown : ¬OwnInFlight s n i)
    (hqueued : (∀ u, (s.entry i).state = .pending u → u.startSent = true) ∨ ¬StartQueued (s.line n) i) :
    ∃ held, (faultState s n).entry i = { s.entry i with held := held } := by
  obtain ⟨held, hended⟩ := ended_other hown
  obtain ⟨held', he⟩ := fault_entry s n i
  refine ⟨held', ?_⟩
  rw [he, hended]
  split
  · next hq => rw [dropped_held, dropped_other (hqueued.resolve_right (not_not_intro (queued_iff.mp hq)))]
  · rfl

theorem fault_taken (hown : OwnInFlight s n i) : ∃ held, (faultState s n).entry i =
    { s.entry i with state := .ready, lastBlock := some .lineDown, held := held } := by
  obtain ⟨held, hended⟩ := ended_own hown
  obtain ⟨held', he⟩ := fault_entry s n i
  refine ⟨held', ?_⟩
  have hready : dropped { s.entry i with state := .ready, lastBlock := some .lineDown, held := held } =
      { s.entry i with state := .ready, lastBlock := some .lineDown, held := held } := dropped_other nofun
  rw [he, hended, hready]
  exact congrArg (fun e : Entry => { e with held := held' }) (ite_self _)

theorem fault_dropped (hu : (s.entry i).state = .pending u) (hsent : u.startSent = false)
    (hqueued : StartQueued (s.line n) i) : ∃ held, (faultState s n).entry i =
      { s.entry i with state := .ready, lastBlock := some .lineDown, held := held } := by
  obtain ⟨held, hended⟩ := ended_other (s := s) (n := n) (i := i) fun ⟨_, _, _, _, v, hv, hvsent⟩ => by
    rw [← EntryState.pending.inj (hu.symm.trans hv), hsent] at hvsent
    cases hvsent
  obtain ⟨held', he⟩ := fault_entry s n i
  refine ⟨held', ?_⟩
  rw [he, hended, if_pos (queued_iff.mpr hqueued), dropped_held, dropped_unsent hu hsent]

/-! ### The capture and the flags -/

variable {record : CaptureRecord} {k : Nat}

theorem captureStep_setLine (s : State) (n : LineId) (l : LineEngine) : CaptureStep record k s (s.setLine n l) :=
  captureStep_of (captureFixed_of_eq rfl) (flagsStay_of_eq rfl) fun _ => rfl

theorem captureStep_pass (s : State) (n : LineId) : CaptureStep record k (endedState s n) (passDropped s n) :=
  (captureStep_setLine _ n _).trans
    (foldl_walk CaptureStep.refl CaptureStep.trans (fun t r => (dropPassDown_rules n t r).2.2.1 record k) _ _)

theorem captureStep_starts (s : State) (n : LineId) : CaptureStep record k (passDropped s n) (startsDropped s n) :=
  (captureStep_setLine _ n _).trans
    (foldl_walk CaptureStep.refl CaptureStep.trans (fun t c => (dropStartDown_rules t c).2.2.1 record k) _ _)

theorem captureStep_settle (s : State) (n : LineId) : CaptureStep record k (startsDropped s n) (faultState s n) := by
  obtain ⟨answered, back, polls, h⟩ := endedLine_exists s n
  obtain ⟨stops, hfault⟩ := faultLine_of h
  exact captureStep_of (captureFixed_lineWork.settleLine _ n) (flagsStay_of_eq hfault.quiet.flags)
    fun j => by rw [entry_congr hfault.entries]

theorem captureStep_behind (s : State) (n : LineId) : CaptureStep record k (endedState s n) (faultState s n) :=
  ((captureStep_pass s n).trans (captureStep_starts s n)).trans (captureStep_settle s n)

theorem fault_flag (s : State) (n : LineId) : (faultState s n).flag .lineFault = true := by
  have hstep : CaptureStep ⟨.bridge, .probe, probeArg, n, 0, none, none⟩ 0 (downState s n) (faultState s n) :=
    (captureStep_ended s n).trans (captureStep_behind s n)
  exact hstep.flags _ (raise_flag_self _ _)

theorem fault_completed {x : Exchange} (h : (s.line n).engine.exchange = some x)
    (hopened : s.capture.state = .opened record k) (hmark : x.work.mark = some k) :
    CaptureCompleted s (faultState s n) record x.work.entry (.outcome .lineDown) := by
  have hended := ended_completed h hopened hmark
  have ⟨hidle, _⟩ := hended
  have hbehind := captureStep_behind (record := record) (k := k) s n
  obtain ⟨hcapture, hheld⟩ := hbehind.left _ hidle
  exact completed_after hended hcapture hbehind.flags (hheld _)

/-- A recorded request that waited completes the capture (R167). -/
theorem fault_removes (hopened : s.capture.state = .opened record k)
    (h : (∃ r ∈ (s.line n).pass, r.mark = some k) ∨
      ∃ c ∈ (s.line n).control, c.kind ≠ .stopTest ∧ c.mark = some k) : DownDone record (faultState s n) := by
  obtain ⟨answered, back, polls, hline⟩ := endedLine_exists s n
  have hended := ((captureStep_down s n).trans (captureStep_ended s n)).ends.1 hopened
  have hpass := captureStep_pass (record := record) (k := k) s n
  refine ((captureStep_settle (record := record) (k := k) s n).ends.2 ?_)
  rcases h with ⟨r, hr, hmark⟩ | ⟨c, hc, hkind, hmark⟩
  · refine (captureStep_starts (record := record) (k := k) s n).ends.2 ?_
    have hqueue : ((endedState s n).line n).pass = (s.line n).pass := by rw [hline.line]; rfl
    refine foldl_downDone (k := k) (a := r) (fun t r => (dropPassDown_rules n t r).2.2.1 record k) (fun t ht => ?_)
      (by rw [hqueue]; exact hr) hended
    have hjoin : ∃ d : State, d.capture.state = .opened record k ∧
        t.dropPassDown n r = d.captureEnd r.mark r.entry (.outcome .lineDown) := by
      rw [dropPassDown_eq]
      refine ⟨_, ?_, rfl⟩
      split
      · obtain ⟨-, -, hcapture, -⟩ :=
          takeBackUnsent_rest (t.joinBacklog n (outcomeFrame t .lineDown r)) r.entry .lineDown
        rw [hcapture]
        exact ht
      · exact ht
    obtain ⟨d, hd, hdrop⟩ := hjoin
    obtain ⟨hidle, hhit, -⟩ := captureEnd_completed hd r.entry (.outcome .lineDown)
    rw [hdrop, hmark]
    exact ⟨hidle, hhit⟩
  · have hstart : c ∈ ((passDropped s n).line n).control.filter fun c => c.kind.isStart := by
      rw [passDropped_control hline, List.mem_filter]
      exact ⟨hc, by rw [← Bool.not_eq_false]; exact mt isStart_false_iff.mp hkind⟩
    refine foldl_downDone (k := k) (a := c) (fun t c => (dropStartDown_rules t c).2.2.1 record k) (fun t ht => ?_)
      hstart (hended.elim hpass.ends.1 fun hd => .inr (hpass.ends.2 hd))
    obtain ⟨-, -, hcapture, -⟩ := takeBackUnsent_rest t c.entry .lineDown
    obtain ⟨hidle, hhit, -⟩ := captureEnd_completed (by rw [hcapture]; exact ht) c.entry (.outcome .lineDown)
    rw [State.dropStartDown, hmark]
    exact ⟨hidle, hhit⟩

end Fault

/-- Settles O31: the line, the entries whose start was there, and the capture. -/
theorem lineSupplyFault : Obligations.LineSupplyFault := by
  intro s n l
  have hexec : exec (.lineSupplyFault n) s = .next (s.supplyFault n) := rfl
  refine ⟨fun hdown => ?_, fun hup => ⟨faultState s n, exec_fault hup, ?_⟩⟩
  · rw [hexec]
    exact congrArg Host.Outcome.next (if_pos (isDown_iff.mpr hdown))
  · obtain ⟨answered, back, polls, hended⟩ := endedLine_exists s n
    obtain ⟨stops, hline, hothers, hsettled, -⟩ := faultLine_of hended
    have hkept : Kept s (faultState s n) := by
      have h := kept_supplyFault s n
      rwa [Host.Outcome.next.inj (hexec.symm.trans (exec_fault hup))] at h
    refine ⟨?_, ?_, ?_, ?_, ?_, fun c hc => ?_, fun c hc hkind => ?_, ?_, fun p hp => ?_, ?_, ?_, hothers.others,
      hothers.tx, hkept.mains, fun i u hu => ?_, fun i hi => ?_, fun record k hopened => ⟨fun x hx hmark =>
      fault_completed hx hopened hmark, fun h => fault_removes hopened h⟩, fun x c hx hc hkind hroom => ?_,
      fun x p i u hx hp hplace hu => ?_⟩
    · rw [hline]; rfl
    · rw [hline]; rfl
    · rw [hline]; rfl
    · exact fault_flag s n
    · rw [hline]
    · rw [hline, List.mem_append, List.mem_filter] at hc
      rcases hc with ⟨-, hc⟩ | hc
      · exact isStart_false_iff.mp (by simpa using hc)
      · exact hsettled c hc
    · rw [hline, List.mem_append, List.mem_filter]
      exact .inl ⟨List.mem_append_left _ hc, by rw [isStart_false_iff.mpr hkind]; rfl⟩
    · rw [hline]
    · rw [hline]
      exact hended.kept p hp
    · rw [hline]; rfl
    · rw [hline]; rfl
    · intro ended
      refine ⟨fun h => ?_, fun h => ?_⟩
      · rcases h with ⟨hsent, hqueued⟩ | ⟨hsent, x, hx, hname, hplace⟩
        · obtain ⟨held, he⟩ := fault_dropped hu hsent hqueued
          rw [he]
          exact ⟨rfl, rfl, rfl⟩
        · obtain ⟨held, he⟩ := fault_taken ⟨x, hx, hname, hplace, u, hu, hsent⟩
          rw [he]
          exact ⟨rfl, rfl, rfl⟩
      · obtain ⟨held, he⟩ := fault_left (s := s) (n := n) (i := i)
          (fun ⟨x, hx, hname, hplace, v, hv, hsent⟩ => h (.inr ⟨by
            rw [EntryState.pending.inj (hu.symm.trans hv)]; exact hsent, x, hx, hname, hplace⟩)) (by
            cases hsent : u.startSent with
            | false => exact .inr fun hq => h (.inl ⟨hsent, hq⟩)
            | true => exact .inl fun v hv => by rw [← EntryState.pending.inj (hu.symm.trans hv)]; exact hsent)
        rw [he]
        exact ⟨hu, rfl⟩
    · obtain ⟨held, he⟩ := fault_left (s := s) (n := n) (i := i) (fun ⟨_, _, _, _, u, hu, _⟩ => hi u hu)
        (.inl fun u hu => absurd hu (hi u))
      rw [he]
      exact ⟨rfl, rfl⟩
    · obtain ⟨d, hd, hdkind, hdentry, hdnode⟩ := hended.putBack x c hx hc hkind hroom
      refine ⟨d, ?_, hdkind, hdentry, hdnode⟩
      rw [hline, List.mem_append, List.mem_filter]
      exact .inl ⟨List.mem_append_right _ hd, by rw [isStart_false_iff.mpr hdkind]; rfl⟩
    · rw [hline]
      exact hended.rejoins x p i u hx hp hplace hu

end Sys2Proof.FaultedLine
end

section
/-! A minute event for the entries (R92, R95, R100, R101, R116, R118). -/

namespace Sys2Proof.Minutes

open Sys2Proof Sys2Proof.Machine Sys2Proof.Machine.Safety Sys2Proof.Laws Sys2Proof.Walks Sys2Proof.DeviceLaws
  Sys2Proof.LineOrder Sys2Proof.EntryOrder Sys2Proof.SchedulingPass Sys2Proof.LineService Sys2Proof.Captures
  Sys2Proof.Verdicts Sys2Proof.ReportsAndStops Sys2Proof.Outages Sys2Proof.Losses Sys2Proof.ClockAndCalendar

/-! ### One entry -/

section Entry

variable {s : State} {i : EntryId}

theorem flagsStay_testWork : TestWork FlagsStay where
  refl := FlagsStay.refl
  trans := FlagsStay.trans
  setEntry := fun _ _ _ => flagsStay_of_eq rfl
  raise := flagsStay_raise
  joinPoll := fun s i => flagsStay_of_eq (quiet_joinPoll s i).flags
  withdrawPoll := fun s i => (flagsStay_of_eq (t := s.setLine (s.entry i).line _) rfl).trans
    (flagsStay_captureEndAll _ _ _)
  removeControl := fun s n _ => (flagsStay_of_eq (t := s.setLine n _) rfl).trans (flagsStay_captureEndAll _ _ _)

/-- Another entry's minute leaves an entry, but for a hold. -/
theorem minuteEntry_others {j : EntryId} (h : j ≠ i) (s : State) : HeldAs (s.entry i) ((s.minuteEntry j).entry i) := by
  have hstate (st : EntryState) : HeldAs (s.entry i) ((s.setEntryState j st).entry i) :=
    .inl (by rw [setEntryState_entry, if_neg h])
  unfold State.minuteEntry
  split
  · next u hu =>
    split
    · by_cases hdown : (s.line (s.entry j).line).engine = .down
      · rw [remainingOut_down hdown]
        obtain ⟨-, hothers⟩ := recordVerdict_entries (s := s.setEntryState j (.testing { u with remaining := 0 }))
          (i := j) (u := { u with remaining := 0 }) (by rw [setEntryState_entry_self]; rfl) .overrun 0
        exact heldAs_trans (hstate _) (hothers i (Ne.symm h))
      · rw [remainingOut_up hdown]
        exact heldAs_trans (hstate _) (toEnding_entries s j _ i)
    · exact hstate _
  · split
    · exact hstate _
    · exact hstate _
  · split
    · exact .inl rfl
    · split
      · exact hstate _
      · exact hstate _
  all_goals exact .inl rfl

/-- The course of an entry through a minute, but for the end of a test (R95, R100, R118). -/
def minuteCourse (s : State) (e : Entry) : EntryState :=
  match e.state with
  | .testing u => .testing { u with remaining := u.remaining - 1 }
  | .recharging left => if left ≤ 1 then .ready else .recharging (left - 1)
  | .backoff left => if s.inOutage e.line then .backoff left else if left ≤ 1 then .ready else .backoff (left - 1)
  | st => st

theorem minuteCourse_not_pending {e : Entry} (h : ∀ u, e.state ≠ .pending u) (u : CurrentTest) :
    minuteCourse s e ≠ .pending u := by
  unfold minuteCourse
  cases hs : e.state with
  | pending v => exact absurd hs (h v)
  | recharging left =>
    dsimp only
    split
    · exact nofun
    · exact nofun
  | backoff left =>
    dsimp only
    split
    · exact nofun
    · split
      · exact nofun
      · exact nofun
  | ready => exact nofun
  | testing v => exact nofun
  | ending v => exact nofun
  | faulted => exact nofun

theorem minuteEntry_counts (h : ∀ u, (s.entry i).state = .testing u → 2 ≤ u.remaining) :
    (s.minuteEntry i).entry i = { s.entry i with state := minuteCourse s (s.entry i) } := by
  unfold State.minuteEntry minuteCourse
  split
  · next u hu =>
    rw [hu, if_neg (Nat.not_le.mpr (h u hu)), setEntryState_entry_self]
  · next left hu =>
    rw [hu]
    dsimp only
    split
    · rw [setEntryState_entry_self]
    · rw [setEntryState_entry_self]
  · next left hu =>
    rw [hu]
    dsimp only
    split
    · rw [← hu]
    · split
      · rw [setEntryState_entry_self]
      · rw [setEntryState_entry_self]
  all_goals
    next hu =>
      rw [hu]
      dsimp only
      rw [← hu]

theorem minuteEntry_due {u : CurrentTest} (hu : (s.entry i).state = .testing u) (h : u.remaining ≤ 1) :
    s.minuteEntry i = s.remainingOut i u := by
  unfold State.minuteEntry
  rw [hu]
  exact if_pos h

end Entry

/-! ### The entries of a minute event -/

section Minute

variable {s : State} {i : EntryId} {u : CurrentTest}

/-- An entry's own step at a minute event, among the steps of the others. -/
theorem minuteEntries_at (s : State) (i : EntryId) : ∃ a, Kept s a ∧ SideWork s a ∧
    HeldAs (s.entry i) (a.entry i) ∧ HeldAs ((a.minuteEntry i).entry i) ((forEntries State.minuteEntry s).entry i) ∧
      FlagsStay (a.minuteEntry i) (forEntries State.minuteEntry s) := by
  obtain ⟨a, ⟨hkept, hside, hbefore, -⟩, -, -, hbehind, hflags⟩ := forEntries_at (i := i) (f := State.minuteEntry)
    (R := fun s t => Kept s t ∧ SideWork s t ∧ HeldAs (s.entry i) (t.entry i) ∧ FlagsStay s t)
    (fun s => ⟨.refl s, .refl s, .inl rfl, .refl s⟩)
    (fun h k => ⟨h.1.trans k.1, h.2.1.trans k.2.1, heldAs_trans h.2.2.1 k.2.2.1, h.2.2.2.trans k.2.2.2⟩)
    (fun j t hj => ⟨kept_minuteEntry j t, sideWork_testWork.minuteEntry j t, minuteEntry_others hj t,
      flagsStay_testWork.minuteEntry j t⟩) s
  exact ⟨a, hkept, hside, hbefore, hbehind, hflags⟩

/-- The minute event before the lines are served. -/
def minuteCounted (s : State) : State := forEntries State.minuteEntry s.clockMinute.passMinute

theorem beforeEntries (s : State) : s.clockMinute.passMinute.entries = s.entries ∧
    s.clockMinute.passMinute.lines = s.lines ∧ s.clockMinute.passMinute.mains = s.mains ∧
    s.clockMinute.passMinute.flags = s.flags ∧ s.clockMinute.passMinute.groups = s.groups ∧
    s.clockMinute.passMinute.policy = s.policy := by
  obtain ⟨k, p, l, h⟩ := passMinute_eq s.clockMinute
  rw [h]
  exact ⟨rfl, rfl, rfl, rfl, rfl, rfl⟩

/-- Mains Sense, the blackouts and the service of the lines send starts only, and lose no flag. -/
theorem countedRest (c : State) : StartsOnly c c.mainsMinute.expireBlackouts.settleLines ∧
    FlagsStay c c.mainsMinute.expireBlackouts.settleLines := by
  have hentries : c.mainsMinute.expireBlackouts.entries = c.entries := rfl
  have hflags : c.mainsMinute.expireBlackouts.flags = c.flags := rfl
  generalize c.mainsMinute.expireBlackouts = d at *
  exact ⟨(startsOnly_of_eq hentries).trans (startsOnly_settleLines d),
    flagsStay_of_eq ((quiet_lineWork.settleLines d).flags.trans hflags)⟩

theorem minuteTick_settles (s : State) : StartsOnly (minuteCounted s) s.minuteTick ∧
    FlagsStay (minuteCounted s) s.minuteTick := countedRest (minuteCounted s)

/-- Behind the service of all lines the stop of an ENDING entry stands, or its queue is full. -/
theorem settleLines_stops (s : State) {n : LineId} (hi : EndingOn s.settleLines n i) :
    (s.settleLines.line n).stopStands (s.settleLines.entry i).node = true ∨
      4 ≤ (s.settleLines.line n).control.length := by
  obtain ⟨a, -, hline, hstarts⟩ := forLines_at (n := n) (f := fun m t => t.settleLine m)
    (R := fun s t => t.line n = s.line n ∧ StartsOnly s t) (fun s => ⟨rfl, .refl s⟩)
    (fun h k => ⟨k.1.trans h.1, h.2.trans k.2⟩)
    (fun m t hm => ⟨(onlyLine_settleLine t m).others n (Ne.symm hm), startsOnly_settleLine t m⟩) s
  change s.settleLines.line n = _ at hline
  change StartsOnly _ s.settleLines at hstarts
  obtain ⟨hending, hnode⟩ := endingOn_of_startsOnly hstarts hi
  rw [hline, hnode]
  exact settleLine_stops a n hending

/-- An entry whose test does not end: its course, but for a start sent and a hold. -/
theorem minute_counts (h : ∀ u, (s.entry i).state = .testing u → 2 ≤ u.remaining) : ∃ held,
    (minuteCounted s).entry i = { s.entry i with state := minuteCourse s (s.entry i), held := held } := by
  obtain ⟨hentries, hlines, hmains, -⟩ := beforeEntries s
  obtain ⟨a, hkept, -, hbefore, hbehind, -⟩ := minuteEntries_at s.clockMinute.passMinute i
  obtain ⟨held, hentry⟩ := heldAs_eq hbefore
  rw [entry_congr hentries] at hentry
  rw [minuteEntry_counts (by rw [hentry]; exact h), hentry] at hbehind
  obtain ⟨held', he⟩ := heldAs_eq hbehind
  have hcourse : minuteCourse a { s.entry i with held := held } = minuteCourse s (s.entry i) := by
    unfold minuteCourse State.inOutage State.mainsLine
    rw [hkept.mains, hmains]
  refine ⟨held', he.trans ?_⟩
  rw [hcourse]

theorem minute_course (h : ∀ u, (s.entry i).state = .testing u → 2 ≤ u.remaining)
    (hp : ∀ u, (s.entry i).state ≠ .pending u) : (s.minuteTick.entry i).state = minuteCourse s (s.entry i) := by
  obtain ⟨held, he⟩ := minute_counts h
  obtain ⟨hstarts, -⟩ := minuteTick_settles s
  have hcourse : ((minuteCounted s).entry i).state = minuteCourse s (s.entry i) := by rw [he]
  rw [hstarts.same i fun u hu => minuteCourse_not_pending hp u (hcourse.symm.trans hu), hcourse]

/-- A PENDING entry's start may be sent by the service of its line (R92). -/
theorem minute_pending (hu : (s.entry i).state = .pending u) : ∃ sent,
    (s.minuteTick.entry i).state = .pending { u with startSent := sent } ∧ (u.startSent = true → sent = true) := by
  obtain ⟨held, he⟩ := minute_counts (s := s) (i := i) fun v hv => by rw [hu] at hv; cases hv
  have hcourse : minuteCourse s (s.entry i) = .pending u := by rw [minuteCourse, hu]
  rw [hcourse] at he
  obtain ⟨hstarts, -⟩ := minuteTick_settles s
  rcases hstarts i with h | ⟨v, hv, h⟩
  · rw [h, he]
    exact ⟨u.startSent, rfl, id⟩
  · rw [he] at hv
    rw [h]
    exact ⟨true, by rw [EntryState.pending.inj hv], fun _ => rfl⟩

/-- Remaining minutes at 0 on a line that is up (R100, R101). -/
theorem minute_ends (hu : (s.entry i).state = .testing u) (hdue : u.remaining ≤ 1)
    (hup : (s.line (s.entry i).line).engine ≠ .down) :
    (s.minuteTick.entry i).state = .ending { u with remaining := 0 } ∧
      (s.minuteTick.entry i).lastVerdict = (s.entry i).lastVerdict ∧
      ((s.entry i).inUse = true → (s.minuteTick.line (s.entry i).line).stopStands (s.entry i).node = true ∨
        4 ≤ (s.minuteTick.line (s.entry i).line).control.length) := by
  obtain ⟨hentries, hlines, -⟩ := beforeEntries s
  obtain ⟨a, -, hside, hbefore, hbehind, -⟩ := minuteEntries_at s.clockMinute.passMinute i
  obtain ⟨held, hentry⟩ := heldAs_eq hbefore
  rw [entry_congr hentries] at hentry
  obtain ⟨-, -, hengine, -⟩ := hside.kept (s.entry i).line
  rw [line_congr hlines] at hengine
  have hupA : (a.line (a.entry i).line).engine ≠ .down := by
    rw [hentry]
    exact fun h => hup (hengine.symm.trans h)
  obtain ⟨held', hending⟩ := toEnding_entry a i { u with remaining := 0 }
  rw [minuteEntry_due (by rw [hentry]; exact hu) hdue, remainingOut_up hupA, hending, hentry] at hbehind
  obtain ⟨held'', he⟩ := heldAs_eq hbehind
  obtain ⟨hstarts, -⟩ := minuteTick_settles s
  have ht : s.minuteTick.entry i = { s.entry i with state := .ending { u with remaining := 0 }, held := held'' } :=
    (hstarts.same i fun v hv => by rw [minuteCounted, he] at hv; cases hv).trans he
  refine ⟨by rw [ht], by rw [ht], fun hin => ?_⟩
  have hnode : (s.minuteTick.entry i).node = (s.entry i).node := by rw [ht]
  rw [← hnode]
  exact settleLines_stops (minuteCounted s).mainsMinute.expireBlackouts (n := (s.entry i).line) (i := i) (by
    change EndingOn s.minuteTick _ _
    rw [EndingOn, ht]
    exact ⟨hin, rfl, rfl⟩)

/-- Remaining minutes at 0 on a DOWN line (R100). -/
theorem minute_overruns (hu : (s.entry i).state = .testing u) (hdue : u.remaining ≤ 1)
    (hdown : (s.line (s.entry i).line).engine = .down) :
    (s.minuteTick.entry i).lastVerdict = some (.overrun, u.kind) ∧ s.minuteTick.flag .verdictFail = true ∧
      (s.minuteTick.entry i).state = afterVerdict s i u.kind .overrun 0 := by
  obtain ⟨hentries, hlines, -, -, hgroups, hpolicy⟩ := beforeEntries s
  obtain ⟨a, hkept, hside, hbefore, hbehind, hflagsBehind⟩ := minuteEntries_at s.clockMinute.passMinute i
  obtain ⟨held, hentry⟩ := heldAs_eq hbefore
  rw [entry_congr hentries] at hentry
  obtain ⟨-, -, hengine, -⟩ := hside.kept (s.entry i).line
  rw [line_congr hlines, hdown] at hengine
  have hdownA : (a.line (a.entry i).line).engine = .down := by
    rw [hentry]
    exact hengine
  have hafter : afterVerdict a i u.kind .overrun 0 = afterVerdict s i u.kind .overrun 0 := by
    unfold afterVerdict State.halts State.group
    rw [hkept.groups, hkept.policy, hgroups, hpolicy, hentry]
  rw [minuteEntry_due (by rw [hentry]; exact hu) hdue, remainingOut_down hdownA] at hbehind hflagsBehind
  obtain ⟨hlast, hstate⟩ := recordVerdict_moved_given (s := a) (i := i) (st := .testing { u with remaining := 0 })
    (u := { u with remaining := 0 }) rfl .overrun 0
  have hfail : ((a.setEntryState i (.testing { u with remaining := 0 })).recordVerdict i .overrun 0).flag .verdictFail =
      true := by
    rw [recordVerdict_flag (u := { u with remaining := 0 }) (f := .verdictFail)
      (by rw [setEntryState_entry_self]; rfl) .overrun 0 nofun]
    simp [Verdict.flag]
  obtain ⟨held', he⟩ := heldAs_eq hbehind
  obtain ⟨hstarts, hflags⟩ := minuteTick_settles s
  have hcounted : ((minuteCounted s).entry i).state = afterVerdict s i u.kind .overrun 0 ∧
      ((minuteCounted s).entry i).lastVerdict = some (.overrun, u.kind) := by
    rw [minuteCounted, he]
    exact ⟨hstate.trans hafter, hlast⟩
  obtain ⟨hcstate, hclast⟩ := hcounted
  have hsame : s.minuteTick.entry i = (minuteCounted s).entry i := hstarts.same i fun v hv =>
    afterVerdict_ne_pending s i u.kind .overrun 0 v (hcstate.symm.trans hv)
  rw [hsame]
  exact ⟨hclast, hflags _ (hflagsBehind _ hfail), hcstate⟩

end Minute

/-- Settles O7: each state by its course, the two ends of a test, a start that may be sent. -/
theorem minuteEventCountsEntries : Obligations.MinuteEventCountsEntries := by
  intro s i
  have hcourse {st : EntryState} (hs : (s.entry i).state = st) (htest : ∀ u, st ≠ .testing u)
      (hp : ∀ u, st ≠ .pending u) : (s.minuteTick.entry i).state = minuteCourse s (s.entry i) :=
    minute_course (fun u hu => absurd (hs.symm.trans hu) (htest u)) fun u hu => hp u (hs.symm.trans hu)
  refine ⟨s.minuteTick, rfl, fun left hs => ?_, fun left hs => ?_, fun u hs hmore => ?_, fun u hs hdue =>
    ⟨minute_ends hs hdue, minute_overruns hs hdue⟩, fun u hs => minute_pending hs, fun u hs => ?_, fun hs => ?_,
    fun hs => ?_⟩
  · rw [hcourse hs nofun nofun, minuteCourse, hs]
  · rw [hcourse hs nofun nofun, minuteCourse, hs]
  · rw [minute_course (fun v hv => by rw [← EntryState.testing.inj (hs.symm.trans hv)]; exact hmore)
      (fun v hv => by rw [hs] at hv; cases hv), minuteCourse, hs]
  · rw [hcourse hs nofun nofun, minuteCourse, hs]
  · rw [hcourse hs nofun nofun, minuteCourse, hs]
  · rw [hcourse hs nofun nofun, minuteCourse, hs]

end Sys2Proof.Minutes
end

section
/-! A LAMP request answered at once, dropped, or cancelling an unsent start (R3, R104, R107, R158 to R160, R162). -/

namespace Sys2Proof.LampRefusals

open Sys2Proof Sys2Proof.Machine Sys2Proof.Machine.Safety Sys2Proof.Laws Sys2Proof.Walks Sys2Proof.DeviceLaws
  Sys2Proof.LineOrder Sys2Proof.EntryOrder Sys2Proof.SchedulingPass Sys2Proof.LineService Sys2Proof.Captures
  Sys2Proof.Trunk Sys2Proof.StartsAndPolls Sys2Proof.ExchangeEnds Sys2Proof.Losses Sys2Proof.Resets Sys2Proof.Supply

/-! ### Translation (R3, R5) -/

section Translation

variable {s : State}

theorem findCln_iff (h : MapUnique s) (c : Nat) (i : EntryId) :
    s.findCln c = some i ↔ (s.entry i).inUse = true ∧ (s.entry i).cln = c := by
  refine ⟨findCln_some, fun ⟨hin, hcln⟩ => ?_⟩
  cases hfind : s.findCln c with
  | none => exact absurd ⟨hin, hcln⟩ ((findCln_none s c).mp hfind i)
  | some j =>
    obtain ⟨hinJ, hclnJ⟩ := findCln_some hfind
    by_cases hij : i = j
    · rw [hij]
    · obtain ⟨hne, -⟩ := h i j hij hin hinJ
      exact absurd (hcln.trans hclnJ.symm) hne

theorem findPlace_iff (h : MapUnique s) (n : LineId) (node : Nat) (i : EntryId) :
    s.findPlace n node = some i ↔ (s.entry i).inUse = true ∧ (s.entry i).line = n ∧ (s.entry i).node = node := by
  refine ⟨findPlace_some, fun ⟨hin, hline, hnode⟩ => ?_⟩
  cases hfind : s.findPlace n node with
  | none => exact absurd ⟨hin, hline, hnode⟩ ((findPlace_none s n node).mp hfind i)
  | some j =>
    obtain ⟨hinJ, hlineJ, hnodeJ⟩ := findPlace_some hfind
    by_cases hij : i = j
    · rw [hij]
    · obtain ⟨-, hne⟩ := h i j hij hin hinJ
      exact absurd (hne.resolve_left (not_not_intro (hline.trans hlineJ.symm)))
        (not_not_intro (hnode.trans hnodeJ.symm))

end Translation

/-! ### The oldest LAMP request (R158) -/

section Take

variable {s : State} {before after : List Frame} {f : Frame}

/-- The oldest LAMP request is `f`, and the Lamp Path does not wait. -/
structure Oldest (s : State) (before after : List Frame) (f : Frame) : Prop where
  queue  : s.rx = before ++ f :: after
  others : ∀ g ∈ before, g.kind ≠ .lampRequest
  lamp   : f.kind = .lampRequest
  free   : s.lampWaiting = false

/-- The request taken out of the receive queue. -/
def taken (s : State) (before after : List Frame) : State := { s with rx := before ++ after }

theorem isLamp_iff {g : Frame} : g.isLamp = true ↔ g.kind = .lampRequest := by
  unfold Frame.isLamp
  exact beq_iff_eq

theorem oldest_found (h : Oldest s before after f) :
    s.rx.find? Frame.isLamp = some f ∧ s.rx.eraseP Frame.isLamp = before ++ after := by
  have hbefore : ∀ g ∈ before, ¬g.isLamp = true := fun g hg => mt isLamp_iff.mp (h.others g hg)
  rw [h.queue, List.find?_append, List.find?_eq_none.mpr hbefore, List.eraseP_append_right _ hbefore]
  refine ⟨List.find?_cons_of_pos (isLamp_iff.mpr h.lamp), ?_⟩
  rw [List.eraseP_cons_of_pos (isLamp_iff.mpr h.lamp)]

theorem lampTake_eq (h : Oldest s before after f) : exec .lampRequestTake s = .next
    (if ((s.lampOutcome f).immediate && s.txFull) = true then { s with lampWaiting := true }
      else (taken s before after).lampPerform f (s.lampOutcome f)) := by
  obtain ⟨hfind, herase⟩ := oldest_found h
  have hexec : exec .lampRequestTake s = .next s.lampTake := rfl
  have hframe : s.lampTakeFrame f = (taken s before after).lampPerform f (s.lampOutcome f) := by
    have htaken : ({ s with rx := before ++ after, lampWaiting := false } : State) = taken s before after := by
      rw [← h.free]
      rfl
    rw [State.lampTakeFrame, herase, htaken]
  rw [hexec, State.lampTake, hfind]
  dsimp only
  rw [h.free, hframe, Bool.false_and, if_neg Bool.false_ne_true]

/-- An outcome that is not immediate is performed. -/
theorem lampTake_performs (h : Oldest s before after f) (ho : (s.lampOutcome f).immediate = false) :
    exec .lampRequestTake s = .next ((taken s before after).lampPerform f (s.lampOutcome f)) := by
  rw [lampTake_eq h, ho, Bool.false_and, if_neg Bool.false_ne_true]

/-- An immediate one is performed with a place free, and makes the Lamp Path wait otherwise. -/
theorem lampTake_immediate (h : Oldest s before after f) (ho : (s.lampOutcome f).immediate = true) :
    (s.tx.length < 16 →
      exec .lampRequestTake s = .next ((taken s before after).lampPerform f (s.lampOutcome f))) ∧
      (16 ≤ s.tx.length → exec .lampRequestTake s = .next { s with lampWaiting := true }) := by
  rw [lampTake_eq h, ho, Bool.true_and]
  refine ⟨fun htx => ?_, fun htx => ?_⟩
  · rw [txFull_false htx, if_neg Bool.false_ne_true]
  · rw [txFull_iff.mpr htx, if_pos rfl]

/-- A request refused at once. -/
def Refused (s : State) (before after : List Frame) (f : Frame) (code : LampCode) : Prop :=
  (s.tx.length < 16 → exec .lampRequestTake s = .next
    { s with
      rx := before ++ after
      tx := s.tx ++ [refusalFrame s f.source f.tag f.lampCln f.lampCode code] }) ∧
  (16 ≤ s.tx.length → exec .lampRequestTake s = .next { s with lampWaiting := true })

theorem refused_of (h : Oldest s before after f) {code : LampCode} (ho : s.lampOutcome f = .answer code) :
    Refused s before after f code := by
  obtain ⟨hfree, hfull⟩ := lampTake_immediate h (by rw [ho]; rfl)
  rw [ho] at hfree
  exact ⟨hfree, hfull⟩

end Take

/-! ### The outcome (R159, R160) -/

section Police

variable {s : State} {f : Frame} {i : EntryId} {name : ReqName} {override : Bool}

theorem lampOutcome_unknown (h : s.findCln f.lampCln = none) :
    s.lampOutcome f = if f.dest = stationAddressOf s.strap then .answer .unknown else .drop := by
  rw [State.lampOutcome, h]
  rfl

theorem lampOutcome_badCode (h : s.findCln f.lampCln = some i) (hname : ReqName.ofCode f.lampCode = none) :
    s.lampOutcome f = .answer .badRequest := by
  rw [State.lampOutcome, h]
  dsimp only
  rw [hname]

theorem lampOutcome_known (h : s.findCln f.lampCln = some i) (hname : ReqName.ofCode f.lampCode = some name) :
    s.lampOutcome f =
      if restArgOk name f.lampArg then s.police i name f.lampOverride else .answer .badRequest := by
  rw [State.lampOutcome, h]
  dsimp only
  rw [hname]

theorem restArgOk_iff {a : Argument} : restArgOk name a = true ↔ (name = .setRest → a.b0.toNat ≤ 1) := by
  unfold restArgOk
  rw [Bool.or_eq_true, bne_iff_ne, decide_eq_true_iff]
  exact Decidable.imp_iff_not_or.symm

theorem police_barred (h : (s.entry i).barred = true) : s.police i name override = .answer .barred := if_pos h

theorem change_iff : name.cls = .change ↔ name = .setParam ∨ name = .setRest := by
  cases name <;> simp [ReqName.cls]

theorem police_locked (hb : (s.entry i).barred = false) (hl : (s.entry i).locked = true)
    (hname : name = .setParam ∨ name = .setRest) : s.police i name override = .answer .locked := by
  have hcheck : (name.cls == .change && (s.entry i).locked) = true := by
    rw [hl, Bool.and_true]
    exact beq_iff_eq.mpr (change_iff.mpr hname)
  rw [State.police, hb, if_neg Bool.false_ne_true, if_pos hcheck]

/-- The checks behind barred and locked. -/
theorem police_unlocked (hb : (s.entry i).barred = false)
    (hl : name = .setParam ∨ name = .setRest → (s.entry i).locked = false) :
    s.police i name override = match s.startPolice (s.entry i) name override with
      | some code => .answer code
      | none =>
        if name == .stopTest && (s.entry i).state.unsentStart then .cancel i
        else if (s.line (s.entry i).line).passFull then .answer .lineFull
        else if s.lineDown (s.entry i).line then .answer .lineDown
        else .accept i name := by
  have hcheck : ¬(name.cls == .change && (s.entry i).locked) = true := by
    rw [Bool.and_eq_true, beq_iff_eq, change_iff]
    rintro ⟨hname, hlocked⟩
    rw [hl hname] at hlocked
    cases hlocked
  rw [State.police, hb, if_neg Bool.false_ne_true, if_neg hcheck] <;> rfl

theorem not_change_of_start (h : name = .startFunction ∨ name = .startDuration) :
    ¬(name = .setParam ∨ name = .setRest) := by
  rcases h with rfl | rfl
  · decide
  · decide

/-- A start that fails its check. -/
theorem police_start {code : LampCode} (hb : (s.entry i).barred = false)
    (hstart : name = .startFunction ∨ name = .startDuration) (h : s.startCheck (s.entry i) override = some code) :
    s.police i name override = .answer code := by
  rw [police_unlocked hb fun hc => absurd hc (not_change_of_start hstart), State.startPolice,
    if_pos (isStart_iff.mpr hstart), h]

theorem startCheck_busy {e : Entry}
    (h : e.state.underTest = true ∨ ((∃ left, e.state = .recharging left) ∧ override = false)) :
    s.startCheck e override = some .busy := by
  unfold State.startCheck
  rcases h with h | ⟨⟨left, h⟩, ho⟩
  · rcases HandOffLimits.underTest_iff.mp h with ⟨u, h | h | h⟩
    · rw [h]
    · rw [h]
    · rw [h]
  · rw [h, ho]
    rfl

/-- The check of a start from READY, BACKOFF or FAULTED. -/
theorem startCheck_startable {e : Entry} (h : StartableFrom e.state) :
    s.startCheck e override = s.startLimits e (!override) := by
  unfold State.startCheck
  rcases h with h | ⟨left, h⟩ | h
  · rw [h]
  · rw [h]
  · rw [h]

theorem startLimits_quota {e : Entry} (h : s.quota e.group ≤ s.outOfService e.group) :
    s.startLimits e true = some .quota := by
  have hfails : s.quotaOk e.group = false := decide_eq_false (Nat.not_lt.mpr h)
  unfold State.startLimits
  rw [hfails]
  rfl

theorem startCheck_permitted {e : Entry} (h : StartPermitted s e override) :
    s.startCheck e override = if 12 ≤ s.lineActive e.line then some .activeLimit else none := by
  have hlimits {checked : Bool} (hok : checked = true → s.quotaOk e.group = true) :
      s.startLimits e checked = if 12 ≤ s.lineActive e.line then some .activeLimit else none := by
    unfold State.startLimits
    refine if_neg ?_
    rw [Bool.and_eq_true, Bool.not_eq_true']
    rintro ⟨hc, hq⟩
    rw [hok hc] at hq
    cases hq
  rcases h with ⟨hfrom, hquota⟩ | ⟨⟨left, hs⟩, ho⟩
  · rw [startCheck_startable hfrom]
    refine hlimits fun hc => decide_eq_true (hquota.resolve_left fun ho => ?_)
    rw [ho] at hc
    cases hc
  · unfold State.startCheck
    rw [hs, ho]
    exact hlimits (checked := false) nofun

/-- A request that passes the first three checks meets the line's. -/
theorem police_passes (h : LampPasses s (s.entry i) name override) :
    s.police i name override =
      if (s.line (s.entry i).line).passFull then .answer .lineFull
      else if s.lineDown (s.entry i).line then .answer .lineDown
      else .accept i name := by
  obtain ⟨hb, hl, hstart, hstop⟩ := h
  have hpolice : s.startPolice (s.entry i) name override = none := by
    unfold State.startPolice
    split
    · next hs =>
      obtain ⟨hpermitted, hactive⟩ := hstart (isStart_iff.mp hs)
      rw [startCheck_permitted hpermitted, if_neg (Nat.not_le.mpr hactive)]
    · rfl
  have hcancel : ¬(name == .stopTest && (s.entry i).state.unsentStart) = true := by
    rw [Bool.and_eq_true, beq_iff_eq]
    rintro ⟨hname, hunsent⟩
    unfold EntryState.unsentStart at hunsent
    split at hunsent
    · next u hu =>
      rw [hstop hname u hu] at hunsent
      cases hunsent
    · cases hunsent
  rw [police_unlocked hb hl, hpolice]
  exact if_neg hcancel

theorem police_cancel {u : CurrentTest} (hb : (s.entry i).barred = false) (hu : (s.entry i).state = .pending u)
    (hsent : u.startSent = false) : s.police i .stopTest override = .cancel i := by
  have hunsent : (s.entry i).state.unsentStart = true := by rw [hu, EntryState.unsentStart, hsent]; rfl
  rw [police_unlocked hb (fun hc => absurd hc (by decide)), State.startPolice, if_neg (by decide), hunsent]
  rfl

end Police

/-! ### Cancelling an unsent start (R107) -/

section Cancel

variable {s : State} {n : LineId} {i : EntryId} {u : CurrentTest} {o : Origin}

/-- The answers of the cancelled head-end starts. -/
def cancelAnswers (s : State) (n : LineId) (i : EntryId) (o : Origin) : List Frame :=
  if o = .headend then ((s.line n).pass.filter (PassRequest.isStartFor i)).map (outcomeFrame s .cancelled) else []

theorem cancelPassStart_eq (s : State) (n : LineId) (i : EntryId) : s.cancelPassStart n i =
    (s.setLine n { s.line n with
      pass := (s.line n).pass.filter fun r => !r.isStartFor i
      backlog := (s.line n).backlog ++
        ((s.line n).pass.filter (PassRequest.isStartFor i)).map (outcomeFrame s .cancelled) }).captureEndAll
      (passMarks ((s.line n).pass.filter (PassRequest.isStartFor i))) (.outcome .cancelled) := by
  unfold State.cancelPassStart
  dsimp only
  rw [joinBacklogs_eq, setLine_setLine, setLine_line_self]
  rfl

/-- The queues of the line behind a cancelled start. -/
theorem cancelStart_line (s : State) (n : LineId) (i : EntryId) (o : Origin) :
    (s.cancelStart n i o).line n = { s.line n with
      pass := if o = .headend then (s.line n).pass.filter (fun r => !r.isStartFor i) else (s.line n).pass
      control := if o = .scheduler then (s.line n).control.filter (fun c => !c.isStartFor i) else (s.line n).control
      backlog := (s.line n).backlog ++ cancelAnswers s n i o } := by
  cases o with
  | scheduler =>
    change (s.removeControl n (ControlRequest.isStartFor i) (.outcome .cancelled)).line n = _
    have hnone : cancelAnswers s n i .scheduler = [] := if_neg nofun
    rw [removeControl_line, hnone, List.append_nil]
    rfl
  | headend =>
    change (s.cancelPassStart n i).line n = _
    rw [cancelPassStart_eq, line_congr (captureEndAll_lines _ _ _), setLine_line_self]
    rfl

theorem isStartFor_entry {c : ControlRequest} (h : c.isStartFor i = true) : c.entry = i := by
  rw [ControlRequest.isStartFor, Bool.and_eq_true, beq_iff_eq] at h
  exact h.2

/-- A recorded start among the cancelled ones completes the capture (R167). -/
theorem cancelStart_completed {record : CaptureRecord} {k : Nat} (hopened : s.capture.state = .opened record k)
    (h : (o = .headend ∧ ∃ r ∈ (s.line n).pass, r.isStartFor i = true ∧ r.mark = some k) ∨
      (o = .scheduler ∧ ∃ c ∈ (s.line n).control, c.isStartFor i = true ∧ c.mark = some k)) :
    CaptureCompleted s (s.cancelStart n i o) record i (.outcome .cancelled) := by
  rcases h with ⟨rfl, r, hr, hstart, hmark⟩ | ⟨rfl, c, hc, hstart, hmark⟩
  · change CaptureCompleted s (s.cancelPassStart n i) record i _
    rw [cancelPassStart_eq]
    generalize hb : s.setLine n _ = b
    have hbOpened : b.capture.state = .opened record k := by rw [← hb]; exact hopened
    have hmarks : (some k, r.entry) ∈ passMarks ((s.line n).pass.filter (PassRequest.isStartFor i)) :=
      List.mem_map.mpr ⟨r, List.mem_filter.mpr ⟨hr, hstart⟩, by rw [hmark]⟩
    obtain ⟨q, hq, hqmark, heq⟩ := captureEndAll_recorded hbOpened ⟨_, hmarks, rfl⟩ (.outcome .cancelled)
    have hqi : q.2 = i := by
      obtain ⟨p, hp, rfl⟩ := List.mem_map.mp hq
      obtain ⟨-, hp⟩ := List.mem_filter.mp hp
      rw [PassRequest.isStartFor, Bool.and_eq_true, beq_iff_eq] at hp
      exact hp.2
    rw [heq, hqi]
    subst hb
    exact completed_before (captureEnd_completed hbOpened i _) rfl rfl rfl rfl
  · exact removeControl_completed hopened ⟨c, hc, hstart, hmark⟩ (fun c hc => isStartFor_entry hc) _

/-- The cancelled start's entry READY, before its line is served. -/
def cancelled (s : State) (n : LineId) (i : EntryId) (o : Origin) : State :=
  (s.cancelStart n i o).setEntryState i .ready

theorem cancelled_entry (s : State) (n : LineId) (i : EntryId) (o : Origin) : ∃ held,
    (cancelled s n i o).entry i = { s.entry i with state := .ready, held := held } := by
  obtain ⟨held, h⟩ := heldAs_eq (holds_cancelStart s n i o i)
  exact ⟨held, by rw [cancelled, setEntryState_entry_self, h]⟩

theorem lampCancel_eq (hu : (s.entry i).state = .pending u) :
    s.lampCancel i = (cancelled s (s.entry i).line i u.origin).settleLine (s.entry i).line := by
  unfold State.lampCancel
  rw [hu]
  rfl

theorem lampCancel_entry (hu : (s.entry i).state = .pending u) : ∃ held,
    (s.lampCancel i).entry i = { s.entry i with state := .ready, held := held } := by
  obtain ⟨held, h⟩ := cancelled_entry s (s.entry i).line i u.origin
  refine ⟨held, ?_⟩
  rw [lampCancel_eq hu, ← h]
  exact (startsOnly_settleLine _ _).same i fun v hv => by rw [h] at hv; cases hv

theorem cancelled_line (s : State) (n : LineId) (i : EntryId) (o : Origin) :
    (cancelled s n i o).line n = (s.cancelStart n i o).line n := rfl

theorem lampCancel_backlog (hu : (s.entry i).state = .pending u) :
    ((s.lampCancel i).line (s.entry i).line).backlog =
      (s.line (s.entry i).line).backlog ++ cancelAnswers s (s.entry i).line i u.origin := by
  have hserved := linesServed_lineWork.settleLine (cancelled s (s.entry i).line i u.origin) (s.entry i).line
  rw [lampCancel_eq hu, (hserved _).backlog, cancelled_line, cancelStart_line]

/-- On a line that is not IDLE no request is granted. -/
theorem lampCancel_queues (hu : (s.entry i).state = .pending u) (hbusy : (s.line (s.entry i).line).engine ≠ .idle) :
    ((s.lampCancel i).line (s.entry i).line).pass = (if u.origin = .headend then
      (s.line (s.entry i).line).pass.filter (fun r => !r.isStartFor i) else (s.line (s.entry i).line).pass) ∧
    ∃ stops, ((s.lampCancel i).line (s.entry i).line).control = (if u.origin = .scheduler then
      (s.line (s.entry i).line).control.filter (fun c => !c.isStartFor i)
        else (s.line (s.entry i).line).control) ++ stops := by
  have hline := (cancelled_line s (s.entry i).line i u.origin).trans (cancelStart_line s (s.entry i).line i u.origin)
  obtain ⟨stops, -, hsettled⟩ := settleLine_busy_line (s := cancelled s (s.entry i).line i u.origin)
    (n := (s.entry i).line) (by rw [hline]; exact hbusy)
  rw [lampCancel_eq hu, hsettled, hline]
  exact ⟨rfl, stops, rfl⟩

theorem lampCancel_completed (hu : (s.entry i).state = .pending u) {record : CaptureRecord} {k : Nat}
    (hopened : s.capture.state = .opened record k)
    (h : (u.origin = .headend ∧ ∃ r ∈ (s.line (s.entry i).line).pass, r.isStartFor i = true ∧ r.mark = some k) ∨
      (u.origin = .scheduler ∧ ∃ c ∈ (s.line (s.entry i).line).control, c.isStartFor i = true ∧ c.mark = some k)) :
    CaptureCompleted s (s.lampCancel i) record i (.outcome .cancelled) := by
  have hstart := cancelStart_completed hopened h
  have hcancelled : CaptureCompleted s (cancelled s (s.entry i).line i u.origin) record i (.outcome .cancelled) :=
    completed_after hstart rfl (flagsStay_of_eq rfl) (by rw [cancelled, setEntryState_entry_self])
  have ⟨hidle, _⟩ := hcancelled
  have hquiet := quiet_lineWork.settleLine (cancelled s (s.entry i).line i u.origin) (s.entry i).line
  obtain ⟨held, hentry⟩ := cancelled_entry s (s.entry i).line i u.origin
  rw [lampCancel_eq hu]
  refine completed_after hcancelled (settleLine_capture (by rw [hidle]; exact nofun)) (flagsStay_of_eq hquiet.flags) ?_
  rw [(startsOnly_settleLine _ _).same i fun v hv => by rw [hentry] at hv; cases hv]

end Cancel

/-- Settles O39: translation, then each row of R159 and R160, and a cancelled start. -/
theorem lampRefusedAtOnce : Obligations.LampRefusedAtOnce := by
  refine ⟨fun s => ⟨fun hmap i => ⟨fun c => findCln_iff hmap c i, fun n node => findPlace_iff hmap n node i⟩,
    findCln_none s, findPlace_none s⟩, fun s before after f hqueue hothers hlamp hfree => ?_⟩
  have hold : Oldest s before after f := ⟨hqueue, hothers, hlamp, hfree⟩
  intro refused
  have hrefused {code : LampCode} (ho : s.lampOutcome f = .answer code) : refused code := refused_of hold ho
  refine ⟨fun hnone => ⟨fun hdest => hrefused ?_, fun hdest => ?_⟩, fun i hi => ⟨fun hname =>
    hrefused (lampOutcome_badCode hi hname), fun name hname => ⟨fun hset harg => hrefused ?_, fun harg => ?_⟩⟩⟩
  · rw [lampOutcome_unknown hnone, if_pos hdest]
  · have ho : s.lampOutcome f = .drop := by rw [lampOutcome_unknown hnone, if_neg hdest]
    rw [lampTake_performs hold (by rw [ho]; rfl), ho]
    rfl
  · rw [lampOutcome_known hi hname, if_neg]
    rw [restArgOk_iff]
    exact fun h => Nat.not_le.mpr harg (h hset)
  · have hpolice : s.lampOutcome f = s.police i name f.lampOverride := by
      rw [lampOutcome_known hi hname, if_pos (restArgOk_iff.mpr harg)]
    intro e l start change
    have hpoliced {code : LampCode} (ho : s.police i name f.lampOverride = .answer code) : refused code :=
      hrefused (hpolice.trans ho)
    refine ⟨fun hb => hpoliced (police_barred hb), fun hb hl hc => hpoliced (police_locked hb hl hc),
      fun hb hs hbusy => hpoliced (police_start hb hs (startCheck_busy hbusy)), fun hb hs hfrom ho hq =>
      hpoliced (police_start hb hs ?_), fun hb hs hp hactive => hpoliced (police_start hb hs ?_), fun hp hfull =>
      hpoliced ?_, fun hp hroom hdown => hpoliced ?_, fun u hb hstop hu hsent => ?_⟩
    · rw [startCheck_startable hfrom, ho]
      exact startLimits_quota hq
    · rw [startCheck_permitted hp, if_pos hactive]
    · rw [police_passes hp]
      exact if_pos (decide_eq_true hfull)
    · rw [police_passes hp, if_neg, if_pos (lineDown_iff.mpr hdown)]
      rw [LineEngine.passFull, decide_eq_true_iff]
      exact Nat.not_le.mpr hroom
    · subst hstop
      have ho : s.lampOutcome f = .cancel i := hpolice.trans (police_cancel hb hu hsent)
      obtain ⟨hplace, hwait⟩ := lampTake_immediate hold (by rw [ho]; rfl)
      rw [ho] at hplace
      refine ⟨hwait, fun htx => ⟨_, hplace htx, ?_⟩⟩
      have hu' : ((taken s before after).entry i).state = .pending u := hu
      obtain ⟨held, hentry⟩ := lampCancel_entry hu'
      have htake : (taken s before after).lampPerform f (.cancel i) =
        ((taken s before after).lampCancel i).pushTx ((taken s before after).lampAnswer f .cancelled) := rfl
      rw [htake]
      have hkept := kept_lampCancel (taken s before after) i
      have htx' := lampCancel_tx (taken s before after) i
      have hbacklog := lampCancel_backlog hu'
      have hqueues := lampCancel_queues hu'
      have hcompleted (record : CaptureRecord) (k : Nat) := lampCancel_completed (record := record) (k := k) hu'
      generalize (taken s before after).lampCancel i = b at *
      refine ⟨hkept.rx, ?_, ?_, ?_, ?_, ?_, hbacklog, fun record k hopened h => ?_, hqueues⟩
      · change b.tx ++ _ = _
        rw [htx']
        rfl
      · rw [pushTx_entry, hentry]
      · rw [pushTx_entry, hentry]; rfl
      · rw [pushTx_entry, hentry]; rfl
      · rw [pushTx_entry, hentry]; rfl
      · exact completed_before (completed_after (hcompleted record k hopened h) rfl (flagsStay_of_eq rfl) rfl)
          rfl rfl rfl rfl

end Sys2Proof.LampRefusals
end

section
/-! A LAMP request accepted: its entry, its place in the queue or its exchange, and the capture (R104 to R106, R108, R137,
R144, R161, R165). -/

namespace Sys2Proof.LampAcceptances

open Sys2Proof Sys2Proof.Machine Sys2Proof.Machine.Safety Sys2Proof.Laws Sys2Proof.Walks Sys2Proof.DeviceLaws
  Sys2Proof.LineOrder Sys2Proof.EntryOrder Sys2Proof.SchedulingPass Sys2Proof.LineService Sys2Proof.Captures
  Sys2Proof.Verdicts Sys2Proof.Admission Sys2Proof.StartsAndPolls Sys2Proof.Losses Sys2Proof.LampRefusals

/-! ### The entry (R105, R106, R108) -/

section Entry

variable {s : State} {i : EntryId} {name : ReqName} {u : CurrentTest}

/-- The kind of test a start asks for. -/
def kindOf (name : ReqName) : Kind := if name = .startFunction then .function else .duration

theorem entryAccepted_start (h : name = .startFunction ∨ name = .startDuration) :
    s.entryAccepted i name = s.setEntry i ((s.entry i).toPending (kindOf name) .headend) := by
  rcases h with rfl | rfl
  · rfl
  · rfl

theorem entryAccepted_plain (hs : ¬(name = .startFunction ∨ name = .startDuration)) (hstop : name ≠ .stopTest) :
    s.entryAccepted i name = s := by
  cases name with
  | startFunction => exact absurd (.inl rfl) hs
  | startDuration => exact absurd (.inr rfl) hs
  | stopTest => exact absurd rfl hstop
  | _ => rfl

theorem entryAccepted_stopTesting (hu : (s.entry i).state = .testing u) :
    s.entryAccepted i .stopTest = s.toEnding i { u with stopRequested := true } := by
  change s.stopAccepted i = _
  rw [State.stopAccepted, hu]

theorem entryAccepted_stopPending (hu : (s.entry i).state = .pending u) :
    s.entryAccepted i .stopTest = s.setEntryState i (.pending { u with stopRequested := true }) := by
  change s.stopAccepted i = _
  rw [State.stopAccepted, hu]

theorem entryAccepted_stopOther (h : (s.entry i).state.test = none ∨ (s.entry i).state.isEnding = true) :
    s.entryAccepted i .stopTest = s := by
  change s.stopAccepted i = s
  unfold State.stopAccepted
  split
  · next u hu => rw [hu] at h; exact absurd h (by simp [EntryState.test, EntryState.isEnding])
  · next u hu => rw [hu] at h; exact absurd h (by simp [EntryState.test, EntryState.isEnding])
  all_goals rfl

/-- A stop is taken by a test that runs, by a start that is sent, or by nothing. -/
theorem stop_cases (st : EntryState) : (∃ u, st = .testing u) ∨ (∃ u, st = .pending u) ∨
    (st.test = none ∨ st.isEnding = true) := by
  cases st with
  | testing u => exact .inl ⟨u, rfl⟩
  | pending u => exact .inr (.inl ⟨u, rfl⟩)
  | ending u => exact .inr (.inr (.inr rfl))
  | _ => exact .inr (.inr (.inl rfl))

theorem entryAccepted_others {j : EntryId} (h : i ≠ j) (s : State) (name : ReqName) :
    HeldAs (s.entry j) ((s.entryAccepted i name).entry j) := by
  by_cases hs : name = .startFunction ∨ name = .startDuration
  · rw [entryAccepted_start hs, setEntry_entry, if_neg h]
    exact .inl rfl
  · by_cases hstop : name = .stopTest
    · subst hstop
      rcases stop_cases (s.entry i).state with ⟨u, hu⟩ | ⟨u, hu⟩ | hother
      · rw [entryAccepted_stopTesting hu]
        have hheld := toEnding_entries s i { u with stopRequested := true } j
        rw [setEntryState_entry, if_neg h] at hheld
        exact hheld
      · rw [entryAccepted_stopPending hu, setEntryState_entry, if_neg h]
        exact .inl rfl
      · rw [entryAccepted_stopOther hother]
        exact .inl rfl
    · rw [entryAccepted_plain hs hstop]
      exact .inl rfl

theorem toEnding_line (s : State) (i : EntryId) (u : CurrentTest) : (s.toEnding i u).line (s.entry i).line =
    { s.line (s.entry i).line with polls := (s.line (s.entry i).line).polls.filter fun p => p.entry != i } := by
  have hline : ((s.setEntryState i (.ending u)).entry i).line = (s.entry i).line := by rw [setEntryState_entry_self]
  have h := withdrawPoll_line (s.setEntryState i (.ending u)) i
  rw [hline] at h
  exact h

/-- Of the line the entry's change touches waiting PROBEs only. -/
theorem entryAccepted_line (s : State) (i : EntryId) (name : ReqName) : ∃ polls,
    (s.entryAccepted i name).line (s.entry i).line = { s.line (s.entry i).line with polls := polls } ∧
      ∀ p ∈ polls, p ∈ (s.line (s.entry i).line).polls := by
  have hsame {t : State} (h : t.lines = s.lines) : ∃ polls,
      t.line (s.entry i).line = { s.line (s.entry i).line with polls := polls } ∧
        ∀ p ∈ polls, p ∈ (s.line (s.entry i).line).polls := ⟨_, line_congr h _, fun _ => id⟩
  by_cases hs : name = .startFunction ∨ name = .startDuration
  · rw [entryAccepted_start hs]
    exact hsame rfl
  · by_cases hstop : name = .stopTest
    · subst hstop
      rcases stop_cases (s.entry i).state with ⟨u, hu⟩ | ⟨u, hu⟩ | hother
      · rw [entryAccepted_stopTesting hu]
        refine ⟨_, toEnding_line s i _, fun p hp => (List.mem_filter.mp hp).1⟩
      · rw [entryAccepted_stopPending hu]
        exact hsame rfl
      · rw [entryAccepted_stopOther hother]
        exact hsame rfl
    · rw [entryAccepted_plain hs hstop]
      exact hsame rfl

/-- A capture that is not OPEN is left. -/
theorem entryAccepted_capture (h : s.capture.state = .watching ∨ name ≠ .stopTest) :
    (s.entryAccepted i name).capture = s.capture := by
  by_cases hs : name = .startFunction ∨ name = .startDuration
  · rw [entryAccepted_start hs]
    rfl
  · by_cases hstop : name = .stopTest
    · subst hstop
      have hwatch := h.resolve_right (not_not_intro rfl)
      rcases stop_cases (s.entry i).state with ⟨u, hu⟩ | ⟨u, hu⟩ | hother
      · have hnone (m : Option Nat) : (s.setEntryState i (.ending { u with stopRequested := true })).capture.recorded m =
            false := by
          rw [setEntryState_capture, ← Bool.not_eq_true, recorded_iff, hwatch]
          rintro ⟨record, k, hc, -⟩
          exact CaptureState.noConfusion hc
        rw [entryAccepted_stopTesting hu, State.toEnding, withdrawPoll_other fun p _ _ => hnone p.mark]
        rfl
      · rw [entryAccepted_stopPending hu]
        rfl
      · rw [entryAccepted_stopOther hother]
    · rw [entryAccepted_plain hs hstop]

end Entry

/-! ### The request joins (R161) -/

section Join

variable {s : State} {f : Frame} {i : EntryId} {name : ReqName} {u : CurrentTest}

/-- The accepted request at the tail of its queue, before the line is served. -/
def joined (s : State) (f : Frame) (i : EntryId) (name : ReqName) : State :=
  (s.entryAccepted i name).joinPass (s.entry i).line (s.passRequest f i name)

theorem lampAccept_eq (s : State) (f : Frame) (i : EntryId) (name : ReqName) :
    s.lampAccept f i name = (joined s f i name).settleLine (s.entry i).line := rfl

theorem joined_entries (s : State) (f : Frame) (i : EntryId) (name : ReqName) :
    (joined s f i name).entries = (s.entryAccepted i name).entries := joinPass_entries _ _ _

/-- The request with its mark. -/
def accepted (s : State) (f : Frame) (i : EntryId) (name : ReqName) (mark : Option Nat) : PassRequest :=
  { s.passRequest f i name with mark := mark }

theorem joined_line (s : State) (f : Frame) (i : EntryId) (name : ReqName) : ∃ mark polls,
    (joined s f i name).line (s.entry i).line = { s.line (s.entry i).line with
      pass := (s.line (s.entry i).line).pass ++ [accepted s f i name mark], polls := polls } ∧
      ∀ p ∈ polls, p ∈ (s.line (s.entry i).line).polls := by
  obtain ⟨polls, hline, hpolls⟩ := entryAccepted_line s i name
  refine ⟨(s.entryAccepted i name).captureMark name i, polls, ?_, hpolls⟩
  rw [joined, joinPass_line, hline]
  rfl

/-- No stop is owed behind an accepted request: the one an accepted stop asks for stands. -/
theorem joined_owes (h : s.owedStop (s.entry i).line = none) :
    (joined s f i name).owedStop (s.entry i).line = none := by
  obtain ⟨mark, polls, hline, -⟩ := joined_line s f i name
  rw [owedStop_none] at h ⊢
  intro j hj
  have hsame (hold : HeldAs (s.entry j) ((joined s f i name).entry j)) :
      ((joined s f i name).line (s.entry i).line).stopStands ((joined s f i name).entry j).node = true := by
    obtain ⟨held, he⟩ := heldAs_eq hold
    rw [EndingOn, he] at hj
    have hstands := h j hj
    rw [he, hline]
    rw [stopStands_iff] at hstands ⊢
    rcases hstands with ⟨r, hr, hstop⟩ | hstands
    · exact .inl ⟨r, List.mem_append_left _ hr, hstop⟩
    · exact .inr hstands
  by_cases hij : i = j
  · subst hij
    by_cases hs : name = .startFunction ∨ name = .startDuration
    · rw [EndingOn, entry_congr (joined_entries s f i name), entryAccepted_start hs, setEntry_entry_self] at hj
      obtain ⟨-, -, hending⟩ := hj
      cases hending
    · by_cases hstop : name = .stopTest
      · obtain ⟨-, -, -, hnode, -⟩ := (kept_entryAccepted s i name).map i
        rw [entry_congr (joined_entries s f i name), hnode, hline, stopStands_iff]
        exact .inl ⟨_, List.mem_append_right _ (List.mem_singleton_self _), hstop, rfl⟩
      · refine hsame ?_
        rw [entry_congr (joined_entries s f i name), entryAccepted_plain hs hstop]
        exact .inl rfl
  · refine hsame ?_
    rw [entry_congr (joined_entries s f i name)]
    exact entryAccepted_others hij s name

end Join

/-! ### The line served (R137, R144) -/

/-- No line gets a waiting PROBE. -/
def PollsShrink (s t : State) : Prop := ∀ m, ∀ p ∈ (t.line m).polls, p ∈ (s.line m).polls

theorem pollsShrink_at {s t : State} {n : LineId} (honly : OnlyLine n s t)
    (h : ∀ p ∈ (t.line n).polls, p ∈ (s.line n).polls) : PollsShrink s t := by
  intro m
  by_cases hm : m = n
  · subst hm
    exact h
  · rw [honly.others m hm]
    exact fun _ => id

theorem pollsShrink_lineWork : LineWork PollsShrink where
  refl := fun _ _ _ => id
  trans := fun h k m p hp => h m p (k m p hp)
  joinControl := fun s n k i node _ => by
    refine pollsShrink_at (onlyLine_joinControl s n k i node) ?_
    rw [joinControl_line]
    exact fun _ => id
  grantTo := fun s n c _ => by
    have htake (w : Work) (node : Nat) (l : LineEngine) (h : ∀ p ∈ l.polls, p ∈ (s.line n).polls) :
        ∀ p ∈ (((s.setLine n l).beginExchange n c w node).line n).polls, p ∈ (s.line n).polls := by
      rw [beginExchange_line, setLine_line_self]
      exact h
    refine pollsShrink_at (onlyLine_grantTo s n c) ?_
    unfold State.grantTo
    dsimp only
    split
    · split
      · exact htake _ _ _ fun _ => id
      · exact fun _ => id
    · split
      · exact htake _ _ _ fun _ => id
      · exact fun _ => id
    · split
      · next hq => exact htake _ _ _ fun p hp => by rw [hq]; exact List.mem_cons_of_mem _ hp
      · exact fun _ => id

/-- The only request of an IDLE line that owes no stop begins its exchange at once. -/
theorem settleLine_only_pass {b : State} {n : LineId} {r : PassRequest} (hidle : (b.line n).engine = .idle)
    (hp : (b.line n).pass = [r]) (hc : (b.line n).control = []) (hl : (b.line n).polls = [])
    (howed : b.owedStop n = none) : (b.settleLine n).line n = { b.line n with
      pass := [], engine := .sending (exchangeOf (b.line n) (.passThrough r) r.node)
      exchangeNumber := (b.line n).exchangeNumber + 1, pointer := .passThrough } ∧
    (∀ u, r.name.isStart = true → (b.entry r.entry).state = .pending u →
      (b.settleLine n).entry r.entry = { b.entry r.entry with state := .pending { u with startSent := true } }) ∧
    (r.name.isStart = false → (b.settleLine n).entries = b.entries) := by
  rw [settleLine_of_none howed, grant_only_pass hidle hp hc hl]
  refine ⟨?_, fun u hstart hu => ?_, fun hother => ?_⟩
  · rw [beginExchange_line, setLine_line_self]
    rfl
  · have hsame : (b.setLine n { b.line n with pass := [] }).entry r.entry = b.entry r.entry :=
      entry_congr (setLine_entries _ _ _) _
    rw [← hsame]
    rw [← hsame] at hu
    exact beginExchange_pending (w := .passThrough r) hstart hu
  · exact (beginExchange_other (w := .passThrough r) hother).trans (setLine_entries _ _ _)

section Served

variable {s : State} {f : Frame} {i : EntryId} {name : ReqName} {u : CurrentTest}

theorem joined_busy (h : (s.line (s.entry i).line).engine ≠ .idle) :
    (s.lampAccept f i name).entries = (s.entryAccepted i name).entries ∧
      ∃ mark, ((s.lampAccept f i name).line (s.entry i).line).pass =
        (s.line (s.entry i).line).pass ++ [accepted s f i name mark] := by
  obtain ⟨mark, polls, hline, -⟩ := joined_line s f i name
  have hbusy : ((joined s f i name).line (s.entry i).line).engine ≠ .idle := by
    rw [hline]
    exact h
  obtain ⟨stops, -, hsettled⟩ := settleLine_busy_line hbusy
  rw [lampAccept_eq]
  refine ⟨(settleLine_busy_entries hbusy).trans (joined_entries s f i name), mark, ?_⟩
  rw [hsettled, hline]

/-- The line is IDLE without work and owes no stop. -/
structure Alone (s : State) (n : LineId) : Prop where
  idle    : (s.line n).engine = .idle
  pass    : (s.line n).pass = []
  control : (s.line n).control = []
  polls   : (s.line n).polls = []
  owed    : s.owedStop n = none

theorem joined_alone (h : Alone s (s.entry i).line) :
    (∃ mark, (s.lampAccept f i name).line (s.entry i).line = { s.line (s.entry i).line with
      engine := .sending (exchangeOf (s.line (s.entry i).line) (.passThrough (accepted s f i name mark))
        (s.entry i).node)
      exchangeNumber := (s.line (s.entry i).line).exchangeNumber + 1, pointer := .passThrough }) ∧
    (∀ u, name.isStart = true → ((s.entryAccepted i name).entry i).state = .pending u →
      ((s.lampAccept f i name).entry i).state = .pending { u with startSent := true }) ∧
    (name.isStart = false → (s.lampAccept f i name).entries = (s.entryAccepted i name).entries) := by
  obtain ⟨hidle, hp, hc, hl, howed⟩ := h
  obtain ⟨mark, polls, hline, hpolls⟩ := joined_line s f i name
  rw [hl] at hpolls
  obtain rfl := List.eq_nil_iff_forall_not_mem.mpr fun p hp => List.not_mem_nil (hpolls p hp)
  have hentries := joined_entries s f i name
  rw [hp, List.nil_append] at hline
  obtain ⟨hsent, hstart, hother⟩ := settleLine_only_pass (b := joined s f i name) (n := (s.entry i).line)
    (r := accepted s f i name mark) (by rw [hline]; exact hidle) (by rw [hline]) (by rw [hline]; exact hc)
    (by rw [hline]) (joined_owes howed)
  rw [lampAccept_eq]
  generalize joined s f i name = b at *
  refine ⟨⟨mark, ?_⟩, fun u hname hu => ?_, fun hname => (hother hname).trans hentries⟩
  · rw [hsent, hline, ← hp, ← hl]
    rfl
  · have hb : (b.entry i).state = .pending u := by rw [entry_congr hentries]; exact hu
    have hsettled := hstart u hname hb
    change (b.settleLine (s.entry i).line).entry i = _ at hsettled
    rw [hsettled]

theorem lampAccept_starts (s : State) (f : Frame) (i : EntryId) (name : ReqName) :
    StartsOnly (s.entryAccepted i name) (s.lampAccept f i name) := by
  rw [lampAccept_eq]
  exact (startsOnly_of_eq (joined_entries s f i name)).trans (startsOnly_settleLine _ _)

/-- An accepted start: PENDING for the head-end, sent where the line was free for it. -/
theorem lampAccept_start (hname : name = .startFunction ∨ name = .startDuration) : ∃ sent,
    (s.lampAccept f i name).entry i = { (s.entry i).toPending (kindOf name) .headend with
      state := .pending { CurrentTest.fresh (kindOf name) .headend with startSent := sent } } ∧
      ((s.line (s.entry i).line).engine ≠ .idle → sent = false) ∧ (Alone s (s.entry i).line → sent = true) := by
  have hentry : (s.entryAccepted i name).entry i = (s.entry i).toPending (kindOf name) .headend := by
    rw [entryAccepted_start hname, setEntry_entry_self]
  have halone (h : Alone s (s.entry i).line) :
      ((s.lampAccept f i name).entry i).state = .pending { CurrentTest.fresh (kindOf name) .headend with
        startSent := true } := by
    obtain ⟨-, hstart, -⟩ := joined_alone (f := f) (name := name) h
    exact hstart _ (isStart_iff.mpr hname) (by rw [hentry]; rfl)
  rcases lampAccept_starts s f i name i with he | ⟨v, hv, he⟩
  · refine ⟨false, he.trans hentry, fun _ => rfl, fun h => ?_⟩
    have hsent := halone h
    rw [he, hentry] at hsent
    cases hsent
  · rw [hentry] at hv he
    cases hv
    refine ⟨true, he, fun hbusy => ?_, fun _ => rfl⟩
    obtain ⟨hentries, -⟩ := joined_busy (f := f) (name := name) hbusy
    rw [entry_congr hentries, hentry] at he
    cases congrArg Entry.state he

/-- An entry that is not PENDING behind the acceptance is left by the service of its line. -/
theorem lampAccept_settled {st : EntryState} (h : ((s.entryAccepted i name).entry i).state = st)
    (hp : ∀ u, st ≠ .pending u) : ((s.lampAccept f i name).entry i).state = st := by
  rw [(lampAccept_starts s f i name).same i fun u hu => hp u (h.symm.trans hu), h]

/-- A PENDING entry whose start is sent is left too. -/
theorem lampAccept_sent (h : ((s.entryAccepted i name).entry i).state = .pending u) (hsent : u.startSent = true) :
    ((s.lampAccept f i name).entry i).state = .pending u := by
  rcases lampAccept_starts s f i name i with he | ⟨v, hv, he⟩
  · rw [he, h]
  · rw [he]
    obtain rfl := EntryState.pending.inj (h.symm.trans hv)
    rw [← hsent]

/-- A stop withdraws the PROBE of its test (R96). -/
theorem lampAccept_withdraws (hu : (s.entry i).state = .testing u) :
    ∀ p ∈ ((s.lampAccept f i .stopTest).line (s.entry i).line).polls, p.entry ≠ i := by
  intro p hp
  have hjoined := pollsShrink_lineWork.settleLine (joined s f i .stopTest) (s.entry i).line (s.entry i).line p hp
  rw [joined, joinPass_line, entryAccepted_stopTesting hu, toEnding_line] at hjoined
  exact bne_iff_ne.mp (List.mem_filter.mp hjoined).2

/-! ### The capture (R165) -/

theorem lampAccept_opens (hwatch : s.capture.state = .watching) (hin : (s.entry i).inUse = true)
    (hcln : (s.entry i).cln = s.capture.target) (hsuits : s.capture.mode.suits name.cls = true) :
    (s.lampAccept f i name).capture.state = .opened
      { origin := .headend, name := name, arg := acceptedArg name f.lampArg (s.entry i).rated, line := (s.entry i).line,
        node := (s.entry i).node, clock := if s.clockValid then some s.minute else none, answer := none }
      s.capture.nextMark := by
  have hcapture := entryAccepted_capture (i := i) (name := name) (.inl hwatch)
  have hkept := kept_entryAccepted s i name
  obtain ⟨hin', hcln', -⟩ := hkept.map i
  have hmatch : (s.entryAccepted i name).captureMatches name i = true :=
    captureMatches_iff.mpr ⟨by rw [hcapture]; exact hwatch, hin'.trans hin, by rw [hcapture, hcln']; exact hcln,
      by rw [hcapture]; exact hsuits⟩
  have hjoined : (joined s f i name).capture.state = .opened
      { origin := .headend, name := name, arg := acceptedArg name f.lampArg (s.entry i).rated,
        line := (s.entry i).line, node := (s.entry i).node,
        clock := if s.clockValid then some s.minute else none, answer := none } s.capture.nextMark := by
    have hopened := captureOffer_opened .headend (acceptedArg name f.lampArg (s.entry i).rated) (s.entry i).line
      (s.entry i).node hmatch
    rw [hkept.clockValid, hkept.minute, hcapture] at hopened
    exact hopened
  rw [lampAccept_eq, settleLine_capture (by rw [hjoined]; exact nofun), hjoined]

theorem lampAccept_capture (hwatch : s.capture.state ≠ .watching) (hstop : name ≠ .stopTest) :
    (s.lampAccept f i name).capture = s.capture := by
  have hcapture := entryAccepted_capture (s := s) (i := i) (.inr hstop)
  have hjoined : (joined s f i name).capture = s.capture :=
    (captureFixed_joinPass _ _ _ (by rw [hcapture]; exact hwatch)).trans hcapture
  rw [lampAccept_eq, settleLine_capture (by rw [hjoined]; exact hwatch), hjoined]

end Served

theorem suits_iff {m : CaptureMode} {name : ReqName} : m.suits name.cls = true ↔
    m = .any ∨ (m = .change ∧ (name = .setParam ∨ name = .setRest)) ∨
      (m = .test ∧ ((name = .startFunction ∨ name = .startDuration) ∨ name = .stopTest)) := by
  cases m <;> cases name <;> decide

theorem acceptedArg_eq (name : ReqName) (a : Argument) (rated : Nat) :
    acceptedArg name a rated = if name = .startDuration then { a with b0 := byteOf rated } else a := by
  cases name <;> rfl

/-- Settles O40: the frame of the take, the entry, the request's place and the capture. -/
theorem lampAccepted : Obligations.LampAccepted := by
  intro s before after f name i hqueue hothers hlamp hfree hname harg hfind e l hpasses hroom hup start arg suits
  have hold : Oldest s before after f := ⟨hqueue, hothers, hlamp, hfree⟩
  obtain ⟨hin, hcln⟩ := findCln_some hfind
  have ho : s.lampOutcome f = .accept i name := by
    rw [lampOutcome_known hfind hname, if_pos (restArgOk_iff.mpr harg), police_passes hpasses, if_neg, if_neg]
    · rw [lineDown_false.mpr hup]
      exact Bool.false_ne_true
    · rw [LineEngine.passFull, decide_eq_true_iff]
      exact Nat.not_le.mpr hroom
  have hrun := lampTake_performs hold (by rw [ho]; rfl)
  rw [ho] at hrun
  change exec .lampRequestTake s = .next ((taken s before after).lampAccept f i name) at hrun
  have harg' : acceptedArg name f.lampArg ((taken s before after).entry i).rated = arg := acceptedArg_eq _ _ _
  have hkept := kept_lampAccept (taken s before after) f i name
  have htx : ((taken s before after).lampAccept f i name).tx = s.tx := by
    rw [lampAccept_eq, (onlyLine_settleLine _ _).tx, joined]
    exact (captureOffer_tx _ _ _ _ _ _ _).trans (sideWork_testWork.entryAccepted _ i name).tx
  obtain ⟨-, -, -, hstop⟩ := hpasses
  have halone (hidle : l.engine = .idle) (hp : l.pass = []) (hc : l.control = []) (hl : l.polls = [])
      (howed : s.owedStop e.line = none) : Alone (taken s before after) ((taken s before after).entry i).line :=
    ⟨hidle, hp, hc, hl, howed⟩
  refine ⟨_, hrun, hkept.rx, htx, hkept.lampWaiting.trans hfree,
    ⟨hkept.groups, hkept.criteria, hkept.policy, hkept.rows, hkept.blackouts, hkept.settings, hkept.lineSettings⟩,
    hkept.map, fun hs => ?_, fun hs => ⟨fun u hu => ⟨?_, ?_⟩, fun u hu => ?_, fun hother => ?_⟩, fun hs hn hfixed => ?_,
    fun hbusy => ?_, fun hidle hp hc hl howed => ⟨fun hs hn => ?_, ?_⟩, fun hwatch htarget hsuits => ?_,
    fun hwatch hn => lampAccept_capture hwatch hn⟩
  · obtain ⟨sent, hentry, hbusy, hfreeLine⟩ := lampAccept_start (s := taken s before after) (f := f) (i := i) hs
    refine ⟨sent, ?_, ?_, ?_, hbusy, fun hidle hp hc hl howed => hfreeLine (halone hidle hp hc hl howed)⟩
    · rw [hentry]; rfl
    · rw [hentry]; rfl
    · rw [hentry]; rfl
  · subst hs
    refine lampAccept_settled ?_ nofun
    obtain ⟨held, h⟩ := toEnding_entry (taken s before after) i { u with stopRequested := true }
    rw [entryAccepted_stopTesting (s := taken s before after) hu, h]
  · subst hs
    exact lampAccept_withdraws (s := taken s before after) hu
  · subst hs
    refine lampAccept_sent ?_ (hstop rfl u hu)
    rw [entryAccepted_stopPending (s := taken s before after) hu, setEntryState_entry_self]
  · subst hs
    refine lampAccept_settled ?_ fun u hu => ?_
    · rw [entryAccepted_stopOther (s := taken s before after) hother]
      rfl
    · rw [hu] at hother
      exact absurd hother (by simp [EntryState.test, EntryState.isEnding])
  · have hplain : (taken s before after).entryAccepted i name = taken s before after := entryAccepted_plain hs hn
    by_cases hbusy : l.engine = .idle
    · refine lampAccept_settled (by rw [hplain]; rfl) fun u hu => ?_
      have huntested := hfixed.resolve_left (not_not_intro hbusy)
      rw [hu] at huntested
      cases huntested
    · obtain ⟨hentries, -⟩ := joined_busy (s := taken s before after) (f := f) (i := i) (name := name) hbusy
      rw [entry_congr hentries, hplain]
      rfl
  · obtain ⟨-, mark, hpass⟩ := joined_busy (s := taken s before after) (f := f) (i := i) (name := name) hbusy
    refine ⟨mark, hpass.trans ?_⟩
    rw [accepted, State.passRequest, harg']
    rfl
  · obtain ⟨-, -, hentries⟩ := joined_alone (f := f) (name := name) (halone hidle hp hc hl howed)
    rw [entry_congr (hentries (by rw [← Bool.not_eq_true]; exact mt isStart_iff.mp hs)),
      entryAccepted_plain hs hn]
    rfl
  · obtain ⟨⟨mark, hline⟩, -⟩ := joined_alone (f := f) (name := name) (halone hidle hp hc hl howed)
    refine ⟨mark, hline.trans ?_⟩
    rw [exchangeOf, accepted, State.passRequest, harg']
    rfl
  · have hopened := lampAccept_opens (s := taken s before after) (f := f) (i := i) (name := name) hwatch hin
      (hcln.trans htarget) (suits_iff.mpr hsuits)
    rw [harg'] at hopened
    exact hopened

end Sys2Proof.LampAcceptances
end

section
/-! The parts of the state, and which of them an operation touches (SPEC, "every command ends in a next state"). -/

namespace Sys2Proof.Frames

open Sys2Proof Sys2Proof.Machine Sys2Proof.Machine.Safety Sys2Proof.Laws Sys2Proof.Walks Sys2Proof.DeviceLaws
  Sys2Proof.LineOrder Sys2Proof.EntryOrder Sys2Proof.Outages

/-! ### The parts -/

/-- The parts of the state. The link and the rotation pointer are in none. -/
inductive Part where
  | station | pending | rx | tx | lamp | noticeNumber | mgmt | pass | passTimer | mains | save | flash | entries | map
  | lines | lineSettings | capture | flags | notice | groups | criteria | policy | rows | settings | blackouts | clock

/-- What only a management write gives an entry. -/
def identityOf (e : Entry) := (e.inUse, e.cln, e.line, e.node, e.group, e.battery, e.rated, e.locked, e.barred)

theorem sameIdentity_iff {e f : Entry} : SameIdentity e f ↔ identityOf f = identityOf e := by
  simp only [SameIdentity, identityOf, Prod.mk.injEq]

/-- The part is as it was. -/
def Part.Same (s t : State) : Part → Prop
  | .station => (t.strap, t.portOpen) = (s.strap, s.portOpen)
  | .pending => t.pending = s.pending
  | .rx => t.rx = s.rx
  | .tx => t.tx = s.tx
  | .lamp => t.lampWaiting = s.lampWaiting
  | .noticeNumber => t.noticeNumber = s.noticeNumber
  | .mgmt => t.mgmt = s.mgmt
  | .pass => (t.passState, t.plan) = (s.passState, s.plan)
  | .passTimer => t.passTimer = s.passTimer
  | .mains => t.mains = s.mains
  | .save => t.save = s.save
  | .flash => t.flash = s.flash
  | .entries => t.entries = s.entries
  | .map => (fun i => identityOf (t.entry i)) = fun i => identityOf (s.entry i)
  | .lines => t.lines = s.lines
  | .lineSettings => (fun n => (t.line n).settings) = fun n => (s.line n).settings
  | .capture => t.capture = s.capture
  | .flags => t.flags = s.flags
  | .notice => (t.noticePending, t.noticeOwed) = (s.noticePending, s.noticeOwed)
  | .groups => t.groups = s.groups
  | .criteria => t.criteria = s.criteria
  | .policy => t.policy = s.policy
  | .rows => t.rows = s.rows
  | .settings => t.settings = s.settings
  | .blackouts => t.blackouts = s.blackouts
  | .clock => (t.minute, t.clockValid, t.seconds) = (s.minute, s.clockValid, s.seconds)

theorem Part.same_refl (s : State) (p : Part) : p.Same s s := by cases p <;> rfl

theorem Part.same_trans {s t u : State} {p : Part} (h : p.Same s t) (k : p.Same t u) : p.Same s u := by
  cases p <;> exact Eq.trans k h

/-- No part but those listed is touched. -/
def Touches (l : List Part) (s t : State) : Prop := ∀ p, p ∉ l → p.Same s t

namespace Touches

variable {l m : List Part} {s t u : State}

theorem refl (l : List Part) (s : State) : Touches l s s := fun p _ => p.same_refl s

theorem trans (h : Touches l s t) (k : Touches l t u) : Touches l s u := fun p hp =>
  Part.same_trans (h p hp) (k p hp)

theorem mono (h : Touches l s t) (hl : l ⊆ m) : Touches m s t := fun p hp => h p fun hmem => hp (hl hmem)

/-- A part that is as it was need not be listed. -/
theorem drop {p : Part} (h : Touches (p :: l) s t) (hp : p.Same s t) : Touches l s t := fun q hq => by
  by_cases he : q = p
  · exact he ▸ hp
  · exact h q fun hmem => (List.mem_cons.mp hmem).elim he hq

theorem drop_last {p : Part} (h : Touches (l ++ [p]) s t) (hp : p.Same s t) : Touches l s t :=
  (h.mono (m := p :: l) (by simp)).drop hp

end Touches

/-! ### The primitive updates -/

section Updates

variable (s : State)

theorem touches_rx (x : List Frame) : Touches [.rx] s { s with rx := x } := fun p hp => by
  cases p with
  | rx => simp at hp
  | _ => rfl

theorem touches_tx (x : List Frame) : Touches [.tx] s { s with tx := x } := fun p hp => by
  cases p with
  | tx => simp at hp
  | _ => rfl

theorem touches_lamp (x : Bool) : Touches [.lamp] s { s with lampWaiting := x } := fun p hp => by
  cases p with
  | lamp => simp at hp
  | _ => rfl

theorem touches_noticeNumber (x : BitVec 16) : Touches [.noticeNumber] s { s with noticeNumber := x } := fun p hp => by
  cases p with
  | noticeNumber => simp at hp
  | _ => rfl

theorem touches_mgmt (x : MgmtState) : Touches [.mgmt] s { s with mgmt := x } := fun p hp => by
  cases p with
  | mgmt => simp at hp
  | _ => rfl

theorem touches_pass (x : PassState) (y : List PlanRecord) : Touches [.pass] s { s with passState := x, plan := y } :=
  fun p hp => by
    cases p with
    | pass => simp at hp
    | _ => rfl

theorem touches_passTimer (x : Nat) : Touches [.passTimer] s { s with passTimer := x } := fun p hp => by
  cases p with
  | passTimer => simp at hp
  | _ => rfl

theorem touches_mains (x : Vector MainsLine 6) : Touches [.mains] s { s with mains := x } := fun p hp => by
  cases p with
  | mains => simp at hp
  | _ => rfl

theorem touches_save (x : Option SavePhase) : Touches [.save] s { s with save := x } := fun p hp => by
  cases p with
  | save => simp at hp
  | _ => rfl

theorem touches_flash (x : List Byte) : Touches [.flash] s { s with flash := x } := fun p hp => by
  cases p with
  | flash => simp at hp
  | _ => rfl

theorem touches_entries (x : Vector Entry 240) : Touches [.entries, .map] s { s with entries := x } := fun p hp => by
  cases p with
  | entries | map => simp at hp
  | _ => rfl

theorem touches_lines (x : Vector LineEngine 6) : Touches [.lines, .lineSettings] s { s with lines := x } :=
  fun p hp => by
    cases p with
    | lines | lineSettings => simp at hp
    | _ => rfl

theorem touches_capture (x : Capture) : Touches [.capture] s { s with capture := x } := fun p hp => by
  cases p with
  | capture => simp at hp
  | _ => rfl

theorem touches_flags (x : BitVec 14) : Touches [.flags] s { s with flags := x } := fun p hp => by
  cases p with
  | flags => simp at hp
  | _ => rfl

theorem touches_notice (x y : Bool) : Touches [.notice] s { s with noticePending := x, noticeOwed := y } :=
  fun p hp => by
    cases p with
    | notice => simp at hp
    | _ => rfl

theorem touches_groups (x : Vector GroupSettings 32) : Touches [.groups] s { s with groups := x } := fun p hp => by
  cases p with
  | groups => simp at hp
  | _ => rfl

theorem touches_criteria (x : Vector Nat 16) : Touches [.criteria] s { s with criteria := x } := fun p hp => by
  cases p with
  | criteria => simp at hp
  | _ => rfl

theorem touches_policy (x : Vector Bool 8) : Touches [.policy] s { s with policy := x } := fun p hp => by
  cases p with
  | policy => simp at hp
  | _ => rfl

theorem touches_rows (x : Vector CalendarRow 7) : Touches [.rows] s { s with rows := x } := fun p hp => by
  cases p with
  | rows => simp at hp
  | _ => rfl

theorem touches_settings (x : BridgeSettings) : Touches [.settings] s { s with settings := x } := fun p hp => by
  cases p with
  | settings => simp at hp
  | _ => rfl

theorem touches_blackouts (x : List Blackout) : Touches [.blackouts] s { s with blackouts := x } := fun p hp => by
  cases p with
  | blackouts => simp at hp
  | _ => rfl

theorem touches_clock (x : Nat) (y : Bool) (z : Nat) :
    Touches [.clock] s { s with minute := x, clockValid := y, seconds := z } := fun p hp => by
  cases p with
  | clock => simp at hp
  | _ => rfl

/-- The rotation pointer is in no part. -/
theorem touches_rotation (x : Waiter) : Touches [] s { s with rotation := x } := fun p _ => by cases p <;> rfl

/-- The link is in no part. -/
theorem touches_linkUp (x : Bool) : Touches [] s { s with linkUp := x } := fun p _ => by cases p <;> rfl

end Updates

/-! ### What tests and line work touch -/

section Work

variable {l : List Part} {s t : State}

theorem same_map (h : SameMap s t) : Part.map.Same s t := funext fun i => sameIdentity_iff.mp (h i)

theorem same_lineSettings (h : ∀ n, (t.line n).settings = (s.line n).settings) : Part.lineSettings.Same s t := funext h

/-- Work on tests and lines touches what such work changes, and no more. -/
theorem touches_kept (h : Kept s t) : Touches [.entries, .lines, .capture, .flags, .notice, .tx] s t := fun p hp => by
  cases p with
  | entries | lines | capture | flags | notice | tx => simp at hp
  | station => exact Prod.ext h.strap h.portOpen
  | pass => exact Prod.ext h.passState h.plan
  | clock => exact Prod.ext h.minute (Prod.ext h.clockValid h.seconds)
  | map => exact same_map h.map
  | lineSettings => exact same_lineSettings h.lineSettings
  | pending => exact h.pending
  | rx => exact h.rx
  | lamp => exact h.lampWaiting
  | noticeNumber => exact h.noticeNumber
  | mgmt => exact h.mgmt
  | passTimer => exact h.passTimer
  | mains => exact h.mains
  | save => exact h.save
  | flash => exact h.flash
  | groups => exact h.groups
  | criteria => exact h.criteria
  | policy => exact h.policy
  | rows => exact h.rows
  | settings => exact h.settings
  | blackouts => exact h.blackouts

/-- Such work that places nothing in the transmit queue. -/
theorem touches_unsent (h : Kept s t) (htx : t.tx = s.tx) : Touches [.entries, .lines, .capture, .flags, .notice] s t :=
  Touches.drop_last (l := [.entries, .lines, .capture, .flags, .notice]) (touches_kept h) htx

/-- Such work that raises no flag and places nothing in the transmit queue. -/
theorem touches_quiet (h : Kept s t) (hquiet : Quiet s t) : Touches [.entries, .lines, .capture] s t := by
  obtain ⟨htx, hflags, hpending, howed⟩ := hquiet
  exact Touches.drop_last (l := [.entries, .lines, .capture])
    (Touches.drop_last (l := [.entries, .lines, .capture, .flags]) (touches_unsent h htx)
      (Prod.ext hpending howed)) hflags

theorem touches_entry (s : State) (i : EntryId) {e : Entry} (h : SameIdentity (s.entry i) e) :
    Touches [.entries] s (s.setEntry i e) :=
  Touches.drop_last (l := [.entries]) (touches_entries s _) (same_map (kept_setEntry s i e h).map)

theorem touches_setEntryState (s : State) (i : EntryId) (st : EntryState) : Touches [.entries] s (s.setEntryState i st) :=
  touches_entry s i (sameIdentity_refl _)

theorem touches_line (s : State) (n : LineId) {e : LineEngine} (h : e.settings = (s.line n).settings) :
    Touches [.lines] s (s.setLine n e) :=
  Touches.drop_last (l := [.lines]) (touches_lines s _) (same_lineSettings (kept_setLine s n e h).lineSettings)

theorem touches_setEngine (s : State) (n : LineId) (g : Engine) : Touches [.lines] s (s.setEngine n g) :=
  touches_line s n rfl

theorem touches_settleLine (s : State) (n : LineId) : Touches [.entries, .lines, .capture] s (s.settleLine n) :=
  touches_quiet (kept_settleLine s n) (quiet_lineWork.settleLine s n)

theorem touches_settleLines (s : State) : Touches [.entries, .lines, .capture] s s.settleLines :=
  touches_quiet (kept_settleLines s) (quiet_lineWork.settleLines s)

theorem touches_pushTx (s : State) (f : Frame) : Touches [.tx] s (s.pushTx f) := touches_tx s _

theorem touches_noteRise (s : State) (f : EventFlag) : Touches [.notice] s (s.noteRise f) := by
  unfold State.noteRise
  split
  · exact .refl _ s
  split
  · exact .refl _ s
  split
  · exact .refl _ s
  split
  · exact touches_notice s _ _
  · exact touches_notice s _ _

theorem touches_raise (s : State) (f : EventFlag) : Touches [.flags, .notice] s (s.raise f) := by
  unfold State.raise
  split
  · exact .refl _ s
  · exact ((touches_flags s _).mono (by simp)).trans ((touches_noteRise _ f).mono (by simp))

theorem touches_clearFlags (s : State) (set : BitVec 14) : Touches [.flags] s (s.clearFlags set) := touches_flags s _

theorem touches_endPass (s : State) : Touches [.pass] s s.endPass := touches_pass s _ _

theorem touches_setMains (s : State) (n : LineId) (m : MainsLine) : Touches [.mains] s (s.setMains n m) :=
  touches_mains s _

theorem touches_finish (s : State) (who : Requester) (request : Nat) (code : MgmtCode) (fields : List Byte) :
    Touches [.tx, .mgmt] s (s.finish who request code fields) := by
  unfold State.finish
  split
  · exact (touches_mgmt s _).mono (by simp)
  · exact ((touches_pushTx s _).mono (by simp)).trans ((touches_mgmt _ _).mono (by simp))

end Work

end Sys2Proof.Frames
end

section
/-! What each command touches. -/

namespace Sys2Proof.Frames

open Sys2Proof Sys2Proof.Machine Sys2Proof.Machine.Safety Sys2Proof.Laws Sys2Proof.Walks Sys2Proof.DeviceLaws
  Sys2Proof.LineOrder Sys2Proof.EntryOrder Sys2Proof.Outages Sys2Proof.Losses Sys2Proof.Resets Sys2Proof.FaultedLine
  Sys2Proof.SupplyFaults Sys2Proof.SchedulingPass

/-- A command that ends in a next state and touches no part but those listed. -/
def Ends (c : Instr) (l : List Part) (s : State) : Prop := ∃ t, exec c s = .next t ∧ Touches l s t

/-! ### Time and the Scheduler -/

section Time

variable (s : State)

theorem touches_passExpiry : Touches [.pass] s s.passExpiry := by
  unfold State.passExpiry
  split
  · exact touches_pass s _ _
  · exact .refl _ s

theorem touches_passMinute : Touches [.pass, .passTimer] s s.passMinute := by
  have htimer (k : Nat) : Touches [.pass, .passTimer] s { s with passTimer := k } :=
    (touches_passTimer s k).mono (by simp)
  unfold State.passMinute
  split
  · exact (htimer 0).trans ((touches_passExpiry _).mono (by simp))
  · exact htimer _

theorem touches_minuteEntries :
    Touches [.entries, .lines, .capture, .flags, .notice] s (forEntries State.minuteEntry s) :=
  touches_unsent (kept_forEntries _ kept_minuteEntry s)
    (sideWork_testWork.forEntries (fun i t => sideWork_testWork.minuteEntry i t) s).tx

/-- What a minute event touches behind the clock. -/
def minuteParts : List Part :=
  [.pass, .passTimer, .entries, .lines, .capture, .flags, .notice, .mains, .blackouts]

theorem touches_minuteRest : Touches minuteParts s.clockMinute s.minuteTick :=
  (((((touches_passMinute _).mono (by simp [minuteParts])).trans
    ((touches_minuteEntries _).mono (by simp [minuteParts]))).trans
    ((touches_mains _ _).mono (by simp [minuteParts]))).trans
    ((touches_blackouts _ _).mono (by simp [minuteParts]))).trans
    ((touches_settleLines _).mono (by simp [minuteParts]))

theorem ends_minuteEvent : Ends .minuteEvent (.clock :: minuteParts) s :=
  ⟨_, rfl, (Touches.mono (touches_clock s _ s.clockValid 0) (by simp)).trans
    ((touches_minuteRest s).mono (List.subset_cons_self _ _))⟩

theorem ends_passTimerExpiry : Ends .passTimerExpiry [.pass, .passTimer] s := by
  refine ⟨s.passTimerEnd, rfl, ?_⟩
  unfold State.passTimerEnd
  split
  · exact ((touches_passTimer s 0).mono (by simp)).trans ((touches_passExpiry _).mono (by simp))
  · exact .refl _ s

theorem touches_evaluate (i : EntryId) : Touches [.entries, .flags, .notice] s (s.evaluate i) := by
  have hentry := (touches_entry s i (sameIdentity_evaluated (s.entry i) (s.groupOf (s.entry i)) s.minute)).mono
    (m := [.entries, .flags, .notice]) (by simp)
  unfold State.evaluate
  dsimp only
  split
  · exact hentry.trans ((touches_raise _ _).mono (by simp))
  · exact hentry

theorem touches_offerPlan (c : Option PlanRecord) : Touches [.pass] s (s.offerPlan c) := by
  cases c with
  | none => exact .refl _ s
  | some c => exact touches_pass s s.passState _

theorem touches_walkOn (i : EntryId) : Touches [.pass] s (s.walkOn i) := by
  unfold State.walkOn
  split
  · exact touches_pass s _ s.plan
  split
  · exact touches_endPass s
  · exact touches_pass s _ s.plan

theorem touches_walkOne (i : EntryId) : Touches [.entries, .flags, .notice, .pass] s (s.walkOne i) := by
  unfold State.walkOne
  split
  · exact ((touches_evaluate s i).mono (by simp)).trans ((touches_offerPlan _ _).mono (by simp))
  · exact .refl _ s

theorem ends_walkEntry : Ends .walkEntry [.entries, .flags, .notice, .pass] s := by
  refine ⟨s.walkStep, rfl, ?_⟩
  unfold State.walkStep
  split
  · split
    · exact (touches_walkOne s _).trans ((touches_walkOn _ _).mono (by simp))
    · exact (touches_endPass s).mono (by simp)
  · exact .refl _ s
  · exact .refl _ s

theorem touches_admitRecord (r : PlanRecord) : Touches [.entries, .lines, .capture] s (s.admitRecord r) := by
  refine touches_quiet (kept_admitRecord s r) ?_
  unfold State.admitRecord
  split
  · exact .refl s
  · exact ⟨rfl, rfl, rfl, rfl⟩
  · exact Quiet.trans (t := s.setEntry r.entry _) ⟨rfl, rfl, rfl, rfl⟩ (quiet_joinControl _ _ _ _ _)

theorem touches_endIfEmpty : Touches [.pass] s s.endIfEmpty := by
  unfold State.endIfEmpty
  split
  · exact touches_endPass s
  · exact .refl _ s

theorem ends_admission : Ends .admission [.entries, .lines, .capture, .pass] s := by
  refine ⟨s.admissionStep, rfl, ?_⟩
  unfold State.admissionStep
  split
  · split
    · split
      · exact (touches_endPass s).mono (by simp)
      · exact ((((touches_pass s s.passState _).mono (by simp)).trans ((touches_admitRecord _ _).mono (by simp))).trans
          ((touches_settleLine _ _).mono (by simp))).trans ((touches_endIfEmpty _).mono (by simp))
    · exact (touches_endPass s).mono (by simp)
  · exact .refl _ s
  · exact .refl _ s

theorem quiet_pollDue (i : EntryId) : Quiet s (s.pollDue i) := by
  unfold State.pollDue
  split
  · exact Quiet.trans (t := s.setEntryState i _) ⟨rfl, rfl, rfl, rfl⟩ (quiet_joinPoll _ i)
  · exact .refl s

theorem ends_pollDue (i : EntryId) : Ends (.pollDue i) [.entries, .lines, .capture] s :=
  ⟨s.pollEnd i, rfl, touches_quiet (kept_pollEnd s i)
    ((quiet_pollDue s i).trans (quiet_lineWork.settleLine _ _))⟩

theorem ends_remainingMinutesOut (i : EntryId) :
    Ends (.remainingMinutesOut i) [.entries, .lines, .capture, .flags, .notice] s := by
  refine ⟨s.remainingEnd i, rfl, ?_⟩
  unfold State.remainingEnd
  split
  · split
    · exact (touches_unsent (kept_remainingOut s i _) (sideWork_testWork.remainingOut s i _).tx).trans
        ((touches_settleLine _ _).mono (by simp))
    · exact .refl _ s
  · exact .refl _ s

theorem ends_rechargeEnd (i : EntryId) : Ends (.rechargeEnd i) [.entries] s := by
  refine ⟨s.rechargeEnd i, rfl, ?_⟩
  unfold State.rechargeEnd
  split
  · split
    · exact touches_setEntryState s i _
    · exact .refl _ s
  · exact .refl _ s

theorem ends_backoffEnd (i : EntryId) : Ends (.backoffEnd i) [.entries] s := by
  refine ⟨s.backoffEnd i, rfl, ?_⟩
  unfold State.backoffEnd
  split
  · split
    · exact touches_setEntryState s i _
    · exact .refl _ s
  · exact .refl _ s

end Time

/-! ### Mains Sense -/

section Mains

variable (s : State) (n : LineId)

theorem ends_holdOffEnd : Ends (.holdOffEnd n) [.mains] s := by
  refine ⟨s.holdOffEnd n, rfl, ?_⟩
  unfold State.holdOffEnd
  split
  · exact touches_setMains s n _
  · exact .refl _ s

theorem ends_mainsSenseChange (present : Bool) : Ends (.mainsSenseChange n present) [.mains] s :=
  ⟨_, rfl, touches_setMains s n _⟩

theorem touches_debouncedLoss :
    Touches [.mains, .entries, .lines, .capture, .flags, .notice] s (s.debouncedLoss n) := by
  unfold State.debouncedLoss
  split
  · have hloss := touches_unsent (kept_forEntries _ (kept_lossEntry n) (s.setMains n .atLoss))
      (sideWork_testWork.forEntries (fun i t => sideWork_testWork.lossEntry n i t) _).tx
    exact ((((touches_setMains s n _).mono (by simp)).trans (hloss.mono (by simp))).trans
      ((touches_raise _ _).mono (by simp))).trans ((touches_settleLine _ n).mono (by simp))
  · exact .refl _ s

theorem touches_entriesOnly {s t : State} (h : EntriesOnly s t) : Touches [.entries, .map] s t := by
  rw [h]
  exact touches_entries s _

theorem touches_restoreEntry (x : Nat) (i : EntryId) : Touches [.entries] s (s.restoreEntry n x i) :=
  Touches.drop_last (l := [.entries]) (touches_entriesOnly (restoreEntry_entriesOnly n x i s))
    (same_map (kept_restoreEntry n x i s).map)

theorem touches_debouncedRestore : Touches [.mains, .entries, .flags, .notice] s (s.debouncedRestore n) := by
  unfold State.debouncedRestore
  dsimp only
  split
  · have hrestore (t : State) (x : Nat) : Touches [.entries] t (forEntries (State.restoreEntry n x) t) :=
      foldl_walk (Touches.refl _) Touches.trans (fun t i => touches_restoreEntry t n x i) _ t
    exact (((touches_setMains s n _).mono (by simp)).trans ((hrestore _ _).mono (by simp))).trans
      ((touches_raise _ _).mono (by simp))
  · exact .refl _ s

end Mains

/-! ### The luminaire lines -/

section Lines

variable (s : State) (n : LineId)

/-- A line-supply fault works on its line alone. -/
theorem onlyLine_supplyFault : OnlyLine n s (s.supplyFault n) := by
  by_cases h : (s.line n).engine.isDown = true
  · rw [State.supplyFault, if_pos h]
    exact .refl n s
  · obtain ⟨_, _, _, hended⟩ := endedLine_exists s n
    obtain ⟨_, hfault⟩ := faultLine_of hended
    have heq : s.supplyFault n = faultState s n := if_neg h
    rw [heq]
    exact hfault.others

theorem onlyLine_senseRead (limit : Bool) : OnlyLine n s (s.senseRead n limit) := by
  unfold State.senseRead
  dsimp only
  split
  · exact .refl n s
  split
  · split
    · exact onlyLine_setLine n s _
    · exact (onlyLine_setLine n s _).trans (onlyLine_settleLine _ n)
  split
  · exact (onlyLine_setLine n s _).trans (onlyLine_supplyFault _ n)
  · exact onlyLine_setLine n s _

theorem ends_lineSupplyFault : Ends (.lineSupplyFault n) [.entries, .lines, .capture, .flags, .notice] s :=
  ⟨_, rfl, touches_unsent (kept_supplyFault s n) (onlyLine_supplyFault s n).tx⟩

theorem ends_supplySenseRead (limit : Bool) :
    Ends (.supplySenseRead n limit) [.entries, .lines, .capture, .flags, .notice] s :=
  ⟨_, rfl, touches_unsent (kept_senseRead s n limit) (onlyLine_senseRead s n limit).tx⟩

theorem ends_supplyRetry : Ends (.supplyRetry n) [.lines] s := by
  refine ⟨s.supplyRetry n, rfl, ?_⟩
  unfold State.supplyRetry
  dsimp only
  split
  · exact touches_line s n rfl
  · exact .refl _ s

theorem ends_requestSent : Ends (.requestSent n) [.lines] s := by
  refine ⟨s.requestSent n, rfl, ?_⟩
  unfold State.requestSent
  split
  · exact touches_setEngine s n _
  · exact .refl _ s

theorem kept_answerHeard (heard : List Byte) : Kept s (s.answerHeard n heard) := by
  unfold State.answerHeard
  split
  · split
    · exact .refl s
    · exact .refl s
    · exact (kept_attemptEnd s n _ true).trans (kept_settleLine _ n)
    · exact (kept_endExchange s n _ _).trans (kept_settleLine _ n)
  · exact .refl s

theorem ends_lineAnswerReceived (heard : List Byte) :
    Ends (.lineAnswerReceived n heard) [.entries, .lines, .capture, .flags, .notice, .tx] s :=
  ⟨_, rfl, touches_kept (kept_answerHeard s n heard)⟩

theorem kept_windowClose (cutOff : Bool) : Kept s (s.windowClose n cutOff) := by
  unfold State.windowClose
  split
  · exact (kept_attemptEnd s n _ cutOff).trans (kept_settleLine _ n)
  · exact .refl s

theorem ends_replyWindowClose (cutOff : Bool) :
    Ends (.replyWindowClose n cutOff) [.entries, .lines, .capture, .flags, .notice, .tx] s :=
  ⟨_, rfl, touches_kept (kept_windowClose s n cutOff)⟩

theorem ends_gapEnd : Ends (.gapEnd n) [.entries, .lines, .capture] s := by
  refine ⟨s.gapEnd n, rfl, ?_⟩
  unfold State.gapEnd
  split
  · exact ((touches_setEngine s n _).mono (by simp)).trans (touches_settleLine _ n)
  · exact .refl _ s

end Lines

/-! ### The trunk and the Lamp Path -/

section Trunk

variable (s : State)

theorem ends_frameArrival (f : TrunkFrame) : Ends (.frameArrival f) [.rx, .flags, .notice] s := by
  refine ⟨s.frameArrival f, rfl, ?_⟩
  unfold State.frameArrival
  split
  · split
    · unfold State.joinRx
      split
      · exact (touches_raise s _).mono (by simp)
      · exact (touches_rx s _).mono (by simp)
    · exact .refl _ s
  · exact .refl _ s

theorem touches_buildNotice : Touches [.tx, .notice, .noticeNumber] s s.buildNotice :=
  (((touches_pushTx s _).mono (by simp)).trans ((touches_notice _ false s.noticeOwed).mono (by simp))).trans
    ((touches_noticeNumber _ _).mono (by simp))

theorem ends_noticeBuild : Ends .noticeBuild [.tx, .notice, .noticeNumber] s := by
  refine ⟨s.noticeBuild, rfl, ?_⟩
  unfold State.noticeBuild
  split
  · exact touches_buildNotice s
  · exact .refl _ s

theorem touches_placeBacklog (n : LineId) : Touches [.tx, .lines] s (s.placeBacklog n) := by
  unfold State.placeBacklog
  split
  · exact .refl _ s
  · next f rest _ =>
    exact ((touches_pushTx s f).mono (by simp)).trans (Touches.mono (touches_line (s.pushTx f) n rfl) (by simp))

theorem ends_backlogAnswerPlace (n : LineId) : Ends (.backlogAnswerPlace n) [.tx, .lines] s := by
  refine ⟨s.backlogPlace n, rfl, ?_⟩
  unfold State.backlogPlace
  split
  · exact .refl _ s
  · exact touches_placeBacklog s n

theorem touches_placeMgmt : Touches [.tx, .mgmt] s s.placeMgmt := by
  unfold State.placeMgmt
  split
  · exact ((touches_pushTx s _).mono (by simp)).trans ((touches_mgmt _ _).mono (by simp))
  · exact .refl _ s
  · exact .refl _ s

theorem kept_lampPerform (f : Frame) (o : LampOutcome) : Kept s (s.lampPerform f o) := by
  cases o with
  | drop => exact .refl s
  | answer code => exact kept_pushTx s _
  | cancel i => exact (kept_lampCancel s i).trans (kept_pushTx _ _)
  | accept i name => exact kept_lampAccept s f i name

/-- What the Lamp Path touches with a request it takes. -/
def lampParts : List Part := [.entries, .lines, .capture, .flags, .notice, .tx, .rx, .lamp]

theorem touches_lampTakeFrame (f : Frame) : Touches lampParts s (s.lampTakeFrame f) := by
  have htaken : Touches lampParts s { s with rx := s.rx.eraseP Frame.isLamp, lampWaiting := false } :=
    Touches.trans (Touches.mono (touches_rx s (s.rx.eraseP Frame.isLamp)) (by simp [lampParts]))
      (Touches.mono (touches_lamp { s with rx := s.rx.eraseP Frame.isLamp } false) (by simp [lampParts]))
  exact htaken.trans ((touches_kept (kept_lampPerform _ f (s.lampOutcome f))).mono (by simp [lampParts]))

theorem ends_lampRequestTake : Ends .lampRequestTake lampParts s := by
  refine ⟨s.lampTake, rfl, ?_⟩
  unfold State.lampTake
  split
  · exact .refl _ s
  split
  · exact .refl _ s
  split
  · exact (touches_lamp s true).mono (by simp [lampParts])
  · exact touches_lampTakeFrame s _

theorem touches_lampGranted : Touches lampParts s s.lampGranted := by
  unfold State.lampGranted
  split
  · exact (touches_lamp s false).mono (by simp [lampParts])
  · exact touches_lampTakeFrame s _

/-- What a waiter touches that is granted a place. -/
def waiterParts : List Part := lampParts ++ [.noticeNumber, .mgmt]

theorem touches_serve (w : Waiter) : Touches waiterParts s (s.serve w) := by
  cases w with
  | lampPath => exact (touches_lampGranted s).mono (by simp [waiterParts, lampParts])
  | management => exact (touches_placeMgmt s).mono (by simp [waiterParts, lampParts])
  | backlog n => exact (touches_placeBacklog s n).mono (by simp [waiterParts, lampParts])
  | eventUnit => exact (touches_buildNotice s).mono (by simp [waiterParts, lampParts])

theorem touches_grantPlace : Touches waiterParts s s.grantPlace := by
  unfold State.grantPlace
  split
  · exact ((touches_rotation s _).mono (by simp)).trans (touches_serve _ _)
  · exact .refl _ s

theorem touches_grantPlaces : Touches waiterParts s s.grantPlaces := by
  unfold State.grantPlaces
  dsimp only
  split
  · exact touches_grantPlace s
  · exact (touches_grantPlace s).trans (touches_grantPlace _)

theorem touches_noticeSent (f : Frame) : Touches [.notice] s (s.noticeSent f) := by
  unfold State.noticeSent
  split
  · exact touches_notice s true false
  · exact .refl _ s

theorem ends_frameSent : Ends .frameSent waiterParts s := by
  refine ⟨s.frameSent, rfl, ?_⟩
  unfold State.frameSent
  split
  · split
    · exact .refl _ s
    · next f rest _ =>
      have hsent : Touches waiterParts s (State.noticeSent { s with tx := rest } f) :=
        ((touches_tx s _).mono (by simp [waiterParts, lampParts])).trans
          ((touches_noticeSent _ f).mono (by simp [waiterParts, lampParts]))
      dsimp only
      split
      · exact hsent.trans (touches_grantPlaces _)
      · exact hsent
  · exact .refl _ s

theorem ends_trunkLinkChange (up : Bool) : Ends (.trunkLinkChange up) [] s := ⟨_, rfl, touches_linkUp s up⟩

end Trunk

/-! ### The Image Store -/

section Image

variable (s : State)

theorem ends_imageSaveRead : Ends .imageSaveRead [.save] s := by
  refine ⟨s.saveRead, rfl, ?_⟩
  unfold State.saveRead
  split
  · exact touches_save s _
  · exact .refl _ s

theorem touches_saveEnd (f : EventFlag) : Touches [.save, .flags, .notice] s (s.saveEnd f) :=
  ((touches_save s none).mono (by simp)).trans ((touches_raise _ f).mono (by simp))

theorem touches_written (x : List Byte) (y : Option SavePhase) :
    Touches [.save, .flash, .flags, .notice] s { s with flash := x, save := y } :=
  ((touches_flash s x).mono (by simp)).trans ((touches_save _ y).mono (by simp))

theorem ends_flashOpDone (readBack : List Byte) : Ends (.flashOpDone readBack) [.save, .flash, .flags, .notice] s := by
  refine ⟨s.flashDone readBack, rfl, ?_⟩
  unfold State.flashDone
  split
  · exact touches_written s _ _
  · exact touches_written s _ _
  · exact touches_written s _ _
  · exact touches_written s _ _
  · exact touches_written s _ _
  · exact (touches_saveEnd s _).mono (by simp)
  · exact .refl _ s
  · exact .refl _ s

theorem ends_flashOpTimeout : Ends .flashOpTimeout [.save, .flags, .notice] s := by
  refine ⟨s.flashTimeout, rfl, ?_⟩
  unfold State.flashTimeout
  split
  · exact touches_saveEnd s _
  · exact touches_saveEnd s _
  · exact touches_saveEnd s _
  · exact touches_saveEnd s _
  all_goals exact .refl _ s

end Image

end Sys2Proof.Frames
end

section
/-! What each command of the Management Engine touches. -/

namespace Sys2Proof.Frames

open Sys2Proof Sys2Proof.Machine Sys2Proof.Machine.Safety Sys2Proof.Laws Sys2Proof.Walks Sys2Proof.DeviceLaws
  Sys2Proof.LineOrder Sys2Proof.EntryOrder Sys2Proof.Outages Sys2Proof.Resets

section Requests

variable {s : State} {l : List Part}

/-- Work answered by the engine touches also the engine and the transmit queue. -/
theorem touches_answered {t : State} (h : Touches l s t) (who : Requester) (request : Nat) (code : MgmtCode)
    (fields : List Byte) : Touches (l ++ [.tx, .mgmt]) s (t.finish who request code fields) :=
  (h.mono (List.subset_append_left _ _)).trans
    ((touches_finish t who request code fields).mono (List.subset_append_right _ _))

/-- A request answered without work. -/
theorem touches_refused (s : State) (l : List Part) (who : Requester) (request : Nat) (code : MgmtCode)
    (fields : List Byte) : Touches (l ++ [.tx, .mgmt]) s (s.finish who request code fields) :=
  touches_answered (.refl l s) who request code fields

variable (s)

/-! ### Taking, reading and writing -/

theorem ends_mgmtRequestTake : Ends .mgmtRequestTake [.rx, .tx, .mgmt] s := by
  refine ⟨s.mgmtTake, rfl, ?_⟩
  unfold State.mgmtTake
  split
  · split
    · next f _ =>
      have htaken := touches_rx s (s.rx.eraseP Frame.isMgmt)
      unfold State.mgmtTakeFrame
      dsimp only
      split
      · exact (htaken.mono (by simp)).trans ((touches_mgmt _ _).mono (by simp))
      · exact touches_answered htaken _ _ _ _
    · exact .refl _ s
  · exact .refl _ s

theorem ends_mgmtAnswerPlace : Ends .mgmtAnswerPlace [.tx, .mgmt] s := by
  refine ⟨s.mgmtPlace, rfl, ?_⟩
  unfold State.mgmtPlace
  split
  · exact .refl _ s
  · exact touches_placeMgmt s

theorem touches_job (x : MgmtState) : Touches [.tx, .mgmt] s { s with mgmt := x } := (touches_mgmt s x).mono (by simp)

theorem touches_readBegin (who : Requester) (table : Byte) (first count : Nat) :
    Touches [.tx, .mgmt] s (s.readBegin who table first count) := by
  unfold State.readBegin
  split
  · exact touches_finish s _ _ _ _
  split
  · exact touches_finish s _ _ _ _
  split
  · exact touches_finish s _ _ _ _
  split
  · exact touches_finish s _ _ _ _
  · exact touches_job s _

theorem touches_readOne (who : Requester) (t : Table) (next left : Nat) (got : List (List Byte)) :
    Touches [.tx, .mgmt] s (s.readOne who t next left got) := by
  unfold State.readOne
  split
  · exact touches_finish s _ _ _ _
  · exact touches_job s _

theorem ends_readTable : Ends .readTable [.tx, .mgmt] s := by
  refine ⟨s.readStep, rfl, ?_⟩
  unfold State.readStep
  split
  · exact touches_readBegin s _ _ _ _
  · exact touches_readOne s _ _ _ _ _
  · exact .refl _ s

theorem touches_writeBegin (who : Requester) (table : Byte) (records : List TableRecord) :
    Touches [.tx, .mgmt] s (s.writeBegin who table records) := by
  unfold State.writeBegin
  split
  · exact touches_finish s _ _ _ _
  split
  · exact touches_finish s _ _ _ _
  split
  · exact touches_finish s _ _ _ _
  · exact touches_job s _

/-! ### The records of the tables -/

/-- A record taken touches no part but those listed. -/
def Takes (l : List Part) (s : State) (result : Except MgmtCode State) : Prop := ∀ t, result = .ok t → Touches l s t

variable {s}

theorem takes_ok {t : State} (h : Touches l s t) : Takes l s (.ok t) := fun u hu => by
  obtain rfl := Except.ok.inj hu
  exact h

theorem takes_error (l : List Part) (s : State) (code : MgmtCode) : Takes l s (.error code) := fun _ h => nomatch h

theorem touches_writeStep {mine : TableRecord → Bool} (h : ∀ r, mine r = true → Takes l s (s.takeRecord r)) :
    Touches (l ++ [.tx, .mgmt]) s (s.writeStep mine) := by
  unfold State.writeStep
  split
  · next who table r rest taken _ =>
    split
    · next hmine =>
      have htakes := h r hmine
      cases hr : s.takeRecord r with
      | error code => exact touches_refused s l _ _ _ _
      | ok t =>
        have ht := htakes t hr
        unfold State.writeOne
        dsimp only
        split
        · exact touches_answered ht _ _ _ _
        · exact (ht.mono (List.subset_append_left _ _)).trans
            ((touches_job t _).mono (List.subset_append_right _ _))
    · exact .refl _ s
  · exact .refl _ s

theorem takes_map (r : MapRecord) : Takes [.entries, .map] s (s.takeMap r) := by
  unfold State.takeMap
  split
  · dsimp only
    split
    · exact takes_error _ s _
    · exact takes_ok (touches_entries s _)
  · exact takes_error _ s _

theorem takes_group (r : GroupRecord) : Takes [.groups] s (s.takeGroup r) := by
  unfold State.takeGroup
  split
  · split
    · exact takes_ok (touches_groups s _)
    · exact takes_error _ s _
  · exact takes_error _ s _

theorem takes_calendar (r : CalendarRecord) : Takes [.rows] s (s.takeCalendar r) := by
  unfold State.takeCalendar
  split
  · exact takes_ok (touches_rows s _)
  · exact takes_error _ s _

theorem takes_blackout (b : Blackout) : Takes [.blackouts] s (s.takeBlackout b) := by
  unfold State.takeBlackout
  split
  · unfold State.blackoutRemove
    split
    · exact takes_error _ s _
    · exact takes_ok (touches_blackouts s _)
  · unfold State.blackoutInsert
    split
    · exact takes_error _ s _
    split
    · exact takes_error _ s _
    split
    · exact takes_error _ s _
    · exact takes_ok (touches_blackouts s _)

theorem takes_criteria (battery millivolts : Nat) : Takes [.criteria] s (s.takeCriteria battery millivolts) := by
  unfold State.takeCriteria
  split
  · exact takes_ok (touches_criteria s _)
  · exact takes_error _ s _

theorem takes_policy (index : Nat) (halt : Bool) : Takes [.policy] s (s.takePolicy index halt) := by
  unfold State.takePolicy
  split
  · exact takes_ok (touches_policy s _)
  · exact takes_error _ s _

theorem takes_line (r : LineRecord) : Takes [.lines, .lineSettings] s (s.takeLine r) := by
  unfold State.takeLine
  split
  · exact takes_ok (touches_lines s _)
  · exact takes_error _ s _

theorem touches_endIfUnarmed (s : State) : Touches [.pass] s s.endIfUnarmed := by
  unfold State.endIfUnarmed
  split
  · exact .refl _ s
  · exact touches_endPass s

theorem touches_dropNotice (s : State) : Touches [.notice] s s.dropNotice := by
  unfold State.dropNotice
  split
  · exact touches_notice s _ _
  · exact .refl _ s

theorem takes_bridge (r : BridgeRecord) : Takes [.settings, .pass, .notice] s (s.takeBridge r) := by
  unfold State.takeBridge
  split
  · exact takes_error _ s _
  split
  · exact takes_error _ s _
  split
  · exact takes_ok ((((touches_settings s _).mono (by simp)).trans ((touches_endIfUnarmed _).mono (by simp))).trans
      ((touches_dropNotice _).mono (by simp)))
  · exact takes_error _ s _

variable (s)

theorem ends_mapRecord : Ends .mapRecord [.entries, .map, .tx, .mgmt] s :=
  ⟨_, rfl, touches_writeStep (l := [.entries, .map]) fun r h => by
    cases r with
    | map r => exact takes_map r
    | _ => cases h⟩

theorem ends_groupRecord : Ends .groupRecord [.groups, .tx, .mgmt] s :=
  ⟨_, rfl, touches_writeStep (l := [.groups]) fun r h => by
    cases r with
    | group r => exact takes_group r
    | _ => cases h⟩

theorem ends_calendarRecord : Ends .calendarRecord [.rows, .tx, .mgmt] s :=
  ⟨_, rfl, touches_writeStep (l := [.rows]) fun r h => by
    cases r with
    | calendar r => exact takes_calendar r
    | _ => cases h⟩

theorem ends_blackoutInsert : Ends .blackoutInsert [.blackouts, .tx, .mgmt] s :=
  ⟨_, rfl, touches_writeStep (l := [.blackouts]) fun r h => by
    cases r with
    | blackout b => exact takes_blackout b
    | _ => cases h⟩

theorem ends_blackoutRemove : Ends .blackoutRemove [.blackouts, .tx, .mgmt] s :=
  ⟨_, rfl, touches_writeStep (l := [.blackouts]) fun r h => by
    cases r with
    | blackout b => exact takes_blackout b
    | _ => cases h⟩

theorem ends_criteriaRecord : Ends .criteriaRecord [.criteria, .tx, .mgmt] s :=
  ⟨_, rfl, touches_writeStep (l := [.criteria]) fun r h => by
    cases r with
    | criteria b v => exact takes_criteria b v
    | _ => cases h⟩

theorem ends_policyRecord : Ends .policyRecord [.policy, .tx, .mgmt] s :=
  ⟨_, rfl, touches_writeStep (l := [.policy]) fun r h => by
    cases r with
    | policy k v => exact takes_policy k v
    | _ => cases h⟩

theorem ends_lineRecord : Ends .lineRecord [.lines, .lineSettings, .tx, .mgmt] s :=
  ⟨_, rfl, touches_writeStep (l := [.lines, .lineSettings]) fun r h => by
    cases r with
    | line r => exact takes_line r
    | _ => cases h⟩

theorem ends_bridgeRecord : Ends .bridgeRecord [.settings, .pass, .notice, .tx, .mgmt] s :=
  ⟨_, rfl, touches_writeStep (l := [.settings, .pass, .notice]) fun r h => by
    cases r with
    | bridge r => exact takes_bridge r
    | _ => cases h⟩

/-! ### Requests performed in one step -/

/-- A command that performs the request in hand, or does nothing. -/
theorem ends_of_outcome {c : Instr} {o : Host.Outcome State Fault Refusal} (hc : exec c s = o)
    (h : ∃ t, o = .next t ∧ Touches l s t) : Ends c l s := by
  obtain ⟨t, ho, ht⟩ := h
  exact ⟨t, hc.trans ho, ht⟩

theorem ends_writeTable : Ends .writeTable [.tx, .mgmt] s := by
  refine ends_of_outcome s (o := execWriteTable s) rfl ?_
  unfold execWriteTable
  split
  · exact ⟨_, rfl, touches_writeBegin s _ _ _⟩
  · exact ⟨s, rfl, .refl _ s⟩

theorem ends_setClock : Ends .setClock [.clock, .flags, .tx, .mgmt] s := by
  refine ends_of_outcome s (o := execSetClock s) rfl ?_
  have hload (m : Nat) : Touches [.clock, .flags] s (s.loadClock m) :=
    ((touches_clock s m true 0).mono (by simp)).trans ((touches_clearFlags _ _).mono (by simp))
  unfold execSetClock
  split
  · refine ⟨_, rfl, ?_⟩
    unfold State.setClock
    split
    · exact touches_refused s [.clock, .flags] _ _ _ _
    · exact touches_answered (hload _) _ _ _ _
  · exact ⟨s, rfl, .refl _ s⟩

theorem ends_readStatus : Ends .readStatus [.flags, .tx, .mgmt] s := by
  refine ends_of_outcome s (o := execReadStatus s) rfl ?_
  have hcleared (take : Bool) : Touches [.flags] s (if take then s.clearFlags s.flags else s) := by
    split
    · exact touches_clearFlags s _
    · exact .refl _ s
  unfold execReadStatus
  split
  · exact ⟨_, rfl, touches_answered (hcleared _) _ _ _ _⟩
  · exact ⟨s, rfl, .refl _ s⟩

theorem ends_schedOn : Ends .schedOn [.settings, .tx, .mgmt] s := by
  refine ends_of_outcome s (o := execSchedOn s) rfl ?_
  unfold execSchedOn
  split
  · exact ⟨_, rfl, touches_answered (touches_settings s _) _ _ _ _⟩
  · exact ⟨s, rfl, .refl _ s⟩

theorem ends_schedOff : Ends .schedOff [.settings, .pass, .tx, .mgmt] s := by
  refine ends_of_outcome s (o := execSchedOff s) rfl ?_
  unfold execSchedOff
  split
  · exact ⟨_, rfl, touches_answered (l := [.settings, .pass])
      (((touches_settings s _).mono (by simp)).trans ((touches_endPass _).mono (by simp))) _ _ _ _⟩
  · exact ⟨s, rfl, .refl _ s⟩

theorem touches_onEntry {act : EntryId → MgmtCode × State} (h : ∀ i, Touches [.entries] s (act i).2) (who : Requester)
    (request index : Nat) : Touches [.entries, .tx, .mgmt] s (s.onEntry who request index act) := by
  unfold State.onEntry
  split
  · split
    · exact touches_answered (h _) _ _ _ _
    · exact touches_refused s [.entries] _ _ _ _
  · exact touches_refused s [.entries] _ _ _ _

theorem ends_clearFault : Ends .clearFault [.entries, .tx, .mgmt] s := by
  refine ends_of_outcome s (o := execClearFault s) rfl ?_
  have hcleared (i : EntryId) : Touches [.entries] s (s.clearFaultOf i).2 := by
    unfold State.clearFaultOf
    split
    · exact touches_entry s i (sameIdentity_refl _)
    · exact .refl _ s
  unfold execClearFault
  split
  · exact ⟨_, rfl, touches_onEntry s hcleared _ _ _⟩
  · exact ⟨s, rfl, .refl _ s⟩

theorem touches_mark (i : EntryId) (held touched : Bool) :
    Touches [.entries] s (s.setEntry i { s.entry i with held := held, touched := touched }) :=
  touches_entry s i (sameIdentity_refl (s.entry i))

theorem ends_setHold : Ends .setHold [.entries, .tx, .mgmt] s := by
  refine ends_of_outcome s (o := execSetHold s) rfl ?_
  unfold execSetHold
  split
  · exact ⟨_, rfl, touches_onEntry s (fun i => touches_mark s i true (s.entry i).touched) _ _ _⟩
  · exact ⟨s, rfl, .refl _ s⟩

theorem ends_clearHold : Ends .clearHold [.entries, .tx, .mgmt] s := by
  refine ends_of_outcome s (o := execClearHold s) rfl ?_
  unfold execClearHold
  split
  · exact ⟨_, rfl, touches_onEntry s (fun i => touches_mark s i false (s.entry i).touched) _ _ _⟩
  · exact ⟨s, rfl, .refl _ s⟩

theorem touches_clearAllTouched : Touches [.entries] s s.clearAllTouched :=
  Touches.drop_last (l := [.entries]) (touches_entries s _) (same_map fun i => by
    rw [clearAllTouched_entry]
    exact sameIdentity_refl _)

theorem ends_clearTouched : Ends .clearTouched [.entries, .tx, .mgmt] s := by
  refine ends_of_outcome s (o := execClearTouched s) rfl ?_
  unfold execClearTouched
  split
  · refine ⟨_, rfl, ?_⟩
    unfold State.clearTouched
    split
    · exact touches_answered (touches_clearAllTouched s) _ _ _ _
    · exact touches_onEntry s (fun i => touches_mark s i (s.entry i).held false) _ _ _
  · exact ⟨s, rfl, .refl _ s⟩

theorem ends_armCapture : Ends .armCapture [.capture, .tx, .mgmt] s := by
  refine ends_of_outcome s (o := execArmCapture s) rfl ?_
  unfold execArmCapture
  split
  · refine ⟨_, rfl, ?_⟩
    unfold State.armCapture
    split
    · exact touches_answered (touches_capture s _) _ _ _ _
    · exact touches_refused s [.capture] _ _ _ _
  · exact ⟨s, rfl, .refl _ s⟩

theorem ends_disarmCapture : Ends .disarmCapture [.capture, .tx, .mgmt] s := by
  refine ends_of_outcome s (o := execDisarmCapture s) rfl ?_
  unfold execDisarmCapture
  split
  · exact ⟨_, rfl, touches_answered (touches_capture s _) _ _ _ _⟩
  · exact ⟨s, rfl, .refl _ s⟩

/-- What an abort or a reset of a line touches. -/
def lineParts : List Part := [.entries, .lines, .capture, .flags, .notice, .tx]

theorem ends_lineAbort : Ends .lineAbort (lineParts ++ [.tx, .mgmt]) s := by
  refine ends_of_outcome s (o := execLineAbort s) rfl ?_
  unfold execLineAbort
  split
  · refine ⟨_, rfl, ?_⟩
    unfold State.lineAbort
    split
    · exact touches_answered (touches_kept (kept_abortLine s _)) _ _ _ _
    · exact touches_refused s lineParts _ _ _ _
  · exact ⟨s, rfl, .refl _ s⟩

theorem ends_lineReset : Ends .lineReset (lineParts ++ [.tx, .mgmt]) s := by
  refine ends_of_outcome s (o := execLineReset s) rfl ?_
  unfold execLineReset
  split
  · refine ⟨_, rfl, ?_⟩
    unfold State.lineReset
    split
    · exact touches_answered (touches_kept (kept_resetLine s _)) _ _ _ _
    · exact touches_refused s lineParts _ _ _ _
  · exact ⟨s, rfl, .refl _ s⟩

theorem touches_linesOnly {s t : State} (h : LinesOnly s t) : Touches [.lines, .lineSettings] s t := by
  rw [h]
  exact touches_lines s _

theorem touches_resetEntries : Touches [.entries] s (forEntries State.resetEntry s) :=
  Touches.drop_last (l := [.entries]) (touches_entriesOnly (resetEntries_rules s).1)
    (same_map (kept_forEntries _ kept_resetEntry s).map)

theorem touches_resetEngines : Touches [.lines] s (forLines State.resetEngine s) :=
  Touches.drop_last (l := [.lines]) (touches_linesOnly (resetEngines_rules s).1)
    (same_lineSettings (kept_forLines _ kept_resetEngine s).lineSettings)

/-- What BRIDGE_RESET touches before it is answered. -/
def blockParts : List Part := [.rx, .tx, .lamp, .pass, .passTimer, .entries, .lines, .capture, .notice]

theorem touches_resetRest (tx : List Frame) (c : Capture) : Touches blockParts s
    { s with
      passTimer := 0, passState := .idle, plan := [], rx := [], tx := tx, rotation := .lampPath, lampWaiting := false
      capture := c, noticePending := false, noticeOwed := false } := fun p hp => by
  cases p with
  | rx | tx | lamp | pass | passTimer | capture | notice => simp [blockParts] at hp
  | _ => rfl

theorem touches_resetBlocks : Touches blockParts s s.resetBlocks :=
  (((touches_resetEntries s).mono (by simp [blockParts])).trans
    ((touches_resetEngines _).mono (by simp [blockParts]))).trans (touches_resetRest _ _ _)

theorem ends_bridgeReset : Ends .bridgeReset (blockParts ++ [.tx, .mgmt]) s := by
  refine ends_of_outcome s (o := execBridgeReset s) rfl ?_
  unfold execBridgeReset
  split
  · exact ⟨_, rfl, touches_answered (touches_resetBlocks s) _ _ _ _⟩
  · exact ⟨s, rfl, .refl _ s⟩

theorem ends_saveImage : Ends .saveImage [.save, .flash, .tx, .mgmt] s := by
  refine ends_of_outcome s (o := execSaveImage s) rfl ?_
  have herased : Touches [.save, .flash] s { s with save := some .erasing, flash := [] } :=
    Touches.trans (Touches.mono (touches_save s (some .erasing)) (by simp))
      (Touches.mono (touches_flash { s with save := some .erasing } []) (by simp))
  unfold execSaveImage
  split
  · refine ⟨_, rfl, ?_⟩
    unfold State.saveImage
    split
    · exact touches_refused s [.save, .flash] _ _ _ _
    · exact touches_answered herased _ _ _ _
  · exact ⟨s, rfl, .refl _ s⟩

theorem ends_clearEvents : Ends .clearEvents [.flags, .tx, .mgmt] s := by
  refine ends_of_outcome s (o := execClearEvents s) rfl ?_
  unfold execClearEvents
  split
  · exact ⟨_, rfl, touches_answered (touches_clearFlags s _) _ _ _ _⟩
  · exact ⟨s, rfl, .refl _ s⟩

end Requests

end Sys2Proof.Frames
end

section
/-! Every command ends in its frame. -/

namespace Sys2Proof.Frames

open Sys2Proof Sys2Proof.Machine Sys2Proof.Machine.Safety Sys2Proof.Laws Sys2Proof.Walks Sys2Proof.DeviceLaws
  Sys2Proof.LineOrder Sys2Proof.EntryOrder Sys2Proof.Outages Sys2Proof.Losses Sys2Proof.OwnEntry
  Sys2Proof.PowerUp

/-! ### The other lines -/

/-- Every line but one is as it was. -/
def OthersKept (n : LineId) (s t : State) : Prop := ∀ m, m ≠ n → t.line m = s.line m

theorem OthersKept.refl (n : LineId) (s : State) : OthersKept n s s := fun _ _ => rfl

theorem OthersKept.trans {n : LineId} {s t u : State} (h : OthersKept n s t) (k : OthersKept n t u) :
    OthersKept n s u := fun m hm => (k m hm).trans (h m hm)

theorem othersKept_of_lines {n : LineId} {s t : State} (h : t.lines = s.lines) : OthersKept n s t :=
  fun m _ => line_congr h m

theorem othersKept_setLine (n : LineId) (s : State) (l : LineEngine) : OthersKept n s (s.setLine n l) :=
  (onlyLine_setLine n s l).others

theorem othersKept_setEngine (n : LineId) (s : State) (g : Engine) : OthersKept n s (s.setEngine n g) :=
  othersKept_setLine n s _

theorem othersKept_settleLine (n : LineId) (s : State) : OthersKept n s (s.settleLine n) :=
  (onlyLine_settleLine s n).others

/-- The Monitor's work on an entry stays on the entry's line, and leaves the entry there. -/
def OnOwnLine (i : EntryId) (s t : State) : Prop :=
  OnlyLine (s.entry i).line s t ∧ (t.entry i).line = (s.entry i).line

theorem onOwnLine_of {i : EntryId} {s t : State} (h : OnlyLine (s.entry i).line s t) (k : Kept s t) : OnOwnLine i s t := by
  obtain ⟨-, -, hline, -⟩ := k.map i
  exact ⟨h, hline⟩

theorem onOwnLine_ownWork (i : EntryId) : OwnWork i (OnOwnLine i) where
  refl := fun s => ⟨.refl _ s, rfl⟩
  trans := fun {s t u} h k => by
    obtain ⟨hst, hline⟩ := h
    obtain ⟨htu, hline'⟩ := k
    exact ⟨hst.trans (hline ▸ htu), hline'.trans hline⟩
  setEntry := fun s e h => onOwnLine_of (onlyLine_setEntry _ s i e) (kept_setEntry s i e h.1)
  raise := fun s f => onOwnLine_of (onlyLine_raise _ s f) (kept_raise s f)
  joinPoll := fun s => onOwnLine_of (onlyLine_joinPoll s i) (kept_joinPoll s i)
  withdrawPoll := fun s => onOwnLine_of (onlyLine_withdrawPoll s i) (kept_withdrawPoll s i)
  removeStops := fun s n hn => onOwnLine_of (hn ▸ onlyLine_removeControl s n _ _) (kept_removeControl s n _ _)

section Exchange

variable (s : State) (n : LineId)

theorem othersKept_monitorEnd (node : Nat) (name : ReqName) (poll : Bool) (e : ExchangeEnd) :
    OthersKept n s (s.monitorEnd n node name poll e) := by
  cases h : s.findPlace n node with
  | none =>
    rw [monitorEnd_nobody h]
    exact .refl n s
  | some i =>
    obtain ⟨-, hline, -⟩ := findPlace_some h
    obtain ⟨honly, -⟩ := (onOwnLine_ownWork i).monitorEnd h name poll e
    exact hline ▸ honly.others

theorem othersKept_passAnswerOut (f : Frame) : OthersKept n s (s.passAnswerOut n f) := by
  unfold State.passAnswerOut
  split
  · exact othersKept_setEngine n (s.pushTx f) _
  · exact (othersKept_setLine n s _).trans (othersKept_setEngine n _ _)

theorem touch_lines (r : PassRequest) (e : ExchangeEnd) : (s.touch n r e).lines = s.lines := by
  unfold State.touch
  split
  · split
    · split
      · rfl
      · rfl
    · rfl
  · rfl

theorem othersKept_clientEnd (w : Work) (e : ExchangeEnd) : OthersKept n s (s.clientEnd n w e) := by
  unfold State.clientEnd
  split
  · next r =>
    have htouch : OthersKept n s (s.touch n r e) := othersKept_of_lines (touch_lines s n r e)
    dsimp only
    split
    · exact htouch.trans (othersKept_setLine n _ _)
    · exact htouch.trans (othersKept_passAnswerOut _ n _)
  · split
    · split
      · exact (onlyLine_joinControl s n _ _ _).others
      · exact .refl n s
    · split
      · exact (onlyLine_joinControl s n _ _ _).others
      · exact .refl n s
    · exact .refl n s
  · exact .refl n s

theorem othersKept_endExchange (x : Exchange) (e : ExchangeEnd) : OthersKept n s (s.endExchange n x e) :=
  (((othersKept_setEngine n s _).trans (othersKept_monitorEnd _ n _ _ _ _)).trans
    (othersKept_of_lines (captureEnd_lines _ _ _ _))).trans (othersKept_clientEnd _ n _ _)

theorem othersKept_attemptEnd (x : Exchange) (bad : Bool) : OthersKept n s (s.attemptEnd n x bad) := by
  unfold State.attemptEnd
  dsimp only
  split
  · exact othersKept_setEngine n s _
  · exact othersKept_endExchange s n _ _

theorem othersKept_answerHeard (heard : List Byte) : OthersKept n s (s.answerHeard n heard) := by
  unfold State.answerHeard
  split
  · split
    · exact .refl n s
    · exact .refl n s
    · exact (othersKept_attemptEnd s n _ _).trans (othersKept_settleLine n _)
    · exact (othersKept_endExchange s n _ _).trans (othersKept_settleLine n _)
  · exact .refl n s

theorem othersKept_windowClose (cutOff : Bool) : OthersKept n s (s.windowClose n cutOff) := by
  unfold State.windowClose
  split
  · exact (othersKept_attemptEnd s n _ _).trans (othersKept_settleLine n _)
  · exact .refl n s

theorem othersKept_gapEnd : OthersKept n s (s.gapEnd n) := by
  unfold State.gapEnd
  split
  · exact (othersKept_setEngine n s _).trans (othersKept_settleLine n _)
  · exact .refl n s

theorem othersKept_requestSent : OthersKept n s (s.requestSent n) := by
  unfold State.requestSent
  split
  · exact othersKept_setEngine n s _
  · exact .refl n s

theorem othersKept_supplyRetry : OthersKept n s (s.supplyRetry n) := by
  unfold State.supplyRetry
  dsimp only
  split
  · exact othersKept_setLine n s _
  · exact .refl n s

theorem othersKept_debouncedLoss : OthersKept n s (s.debouncedLoss n) := by
  unfold State.debouncedLoss
  split
  · obtain ⟨-, honly⟩ := lossTaken_frame s n
    exact ((honly.trans (onlyLine_raise n _ _)).trans (onlyLine_settleLine _ n)).others
  · exact .refl n s

theorem othersKept_backlogPlace : OthersKept n s (s.backlogPlace n) := by
  unfold State.backlogPlace
  split
  · exact .refl n s
  · unfold State.placeBacklog
    split
    · exact .refl n s
    · next f rest _ => exact othersKept_setLine n (s.pushTx f) _

end Exchange

/-! ### The frame of a command -/

/-- The parts a command other than POWER_UP may touch. -/
def may (c : Instr) : Part → Bool
  | .station => false
  | .pending => false
  | .rx => actsOnReceive c
  | .tx => actsOnTransmit c
  | .lamp => actsOnLampPath c
  | .noticeNumber => actsOnLampPath c || decide (c = .noticeBuild)
  | .mgmt => actsOnManagement c
  | .pass => actsOnPass c
  | .passTimer => actsOnPassTimer c
  | .mains => actsOnMains c
  | .save => actsOnSave c
  | .flash => (c matches .saveImage | .flashOpDone _)
  | .entries => actsOnEntries c
  | .map => decide (c = .mapRecord)
  | .lines => actsOnLines c
  | .lineSettings => decide (c = .lineRecord)
  | .capture => actsOnCapture c
  | .flags => actsOnFlags c
  | .notice => actsOnNotice c
  | .groups => decide (c = .groupRecord)
  | .criteria => decide (c = .criteriaRecord)
  | .policy => decide (c = .policyRecord)
  | .rows => decide (c = .calendarRecord)
  | .settings => decide (c = .bridgeRecord ∨ c = .schedOn ∨ c = .schedOff)
  | .blackouts => decide (c = .blackoutInsert ∨ c = .blackoutRemove ∨ c = .minuteEvent)
  | .clock => decide (c = .minuteEvent ∨ c = .setClock)

/-- A command ends in a state that differs from `s` in no part it may not touch and, where it is of one line, in no
other line. -/
structure InFrame (c : Instr) (s t : State) : Prop where
  ends   : exec c s = .next t
  parts  : ∀ p, may c p = false → p.Same s t
  others : ∀ n, lineActedOn c = some n → OthersKept n s t

variable {c : Instr} {s t : State}

theorem inFrame_of_line {l : List Part} (h : Ends c l s) (hl : l.all (may c) = true)
    (hother : ∀ n t, lineActedOn c = some n → exec c s = .next t → OthersKept n s t) : ∃ t, InFrame c s t := by
  obtain ⟨t, ht, htouch⟩ := h
  refine ⟨t, ht, fun p hp => htouch p fun hmem => ?_, fun n hn => hother n t hn ht⟩
  rw [List.all_eq_true.mp hl p hmem] at hp
  cases hp

theorem inFrame_of_ends {l : List Part} (h : Ends c l s) (hl : l.all (may c) = true) (hline : lineActedOn c = none) :
    ∃ t, InFrame c s t :=
  inFrame_of_line h hl fun n t hn => by
    rw [hline] at hn
    cases hn

/-- A command of line `n`. -/
theorem inFrame_of_acts {l : List Part} {n : LineId} {u : State} (h : Ends c l s) (hl : l.all (may c) = true)
    (hc : exec c s = .next u) (hline : lineActedOn c = some n) (hother : OthersKept n s u) : ∃ t, InFrame c s t :=
  inFrame_of_line h hl fun m t hm ht => by
    rw [hline] at hm
    obtain rfl := Option.some.inj hm
    rw [hc] at ht
    obtain rfl := Host.Outcome.next.inj ht
    exact hother

theorem command_inFrame (c : Instr) (s : State) (hc : ∀ st f p, c ≠ .powerUp st f p) : ∃ t, InFrame c s t := by
  cases c with
  | powerUp st f p => exact absurd rfl (hc st f p)
  | minuteEvent => exact inFrame_of_ends (ends_minuteEvent s) rfl rfl
  | passTimerExpiry => exact inFrame_of_ends (ends_passTimerExpiry s) rfl rfl
  | walkEntry => exact inFrame_of_ends (ends_walkEntry s) rfl rfl
  | admission => exact inFrame_of_ends (ends_admission s) rfl rfl
  | pollDue i => exact inFrame_of_ends (ends_pollDue s i) rfl rfl
  | remainingMinutesOut i => exact inFrame_of_ends (ends_remainingMinutesOut s i) rfl rfl
  | rechargeEnd i => exact inFrame_of_ends (ends_rechargeEnd s i) rfl rfl
  | backoffEnd i => exact inFrame_of_ends (ends_backoffEnd s i) rfl rfl
  | holdOffEnd n => exact inFrame_of_ends (ends_holdOffEnd s n) rfl rfl
  | mainsSenseChange n present => exact inFrame_of_ends (ends_mainsSenseChange s n present) rfl rfl
  | debouncedLoss n => exact inFrame_of_acts ⟨_, rfl, touches_debouncedLoss s n⟩ rfl rfl rfl (othersKept_debouncedLoss s n)
  | debouncedRestore n => exact inFrame_of_ends ⟨_, rfl, touches_debouncedRestore s n⟩ rfl rfl
  | lineSupplyFault n =>
    exact inFrame_of_acts (ends_lineSupplyFault s n) rfl rfl rfl (onlyLine_supplyFault s n).others
  | supplyRetry n => exact inFrame_of_acts (ends_supplyRetry s n) rfl rfl rfl (othersKept_supplyRetry s n)
  | supplySenseRead n limit =>
    exact inFrame_of_acts (ends_supplySenseRead s n limit) rfl rfl rfl (onlyLine_senseRead s n limit).others
  | requestSent n => exact inFrame_of_acts (ends_requestSent s n) rfl rfl rfl (othersKept_requestSent s n)
  | lineAnswerReceived n heard =>
    exact inFrame_of_acts (ends_lineAnswerReceived s n heard) rfl rfl rfl (othersKept_answerHeard s n heard)
  | replyWindowClose n cutOff =>
    exact inFrame_of_acts (ends_replyWindowClose s n cutOff) rfl rfl rfl (othersKept_windowClose s n cutOff)
  | gapEnd n => exact inFrame_of_acts (ends_gapEnd s n) rfl rfl rfl (othersKept_gapEnd s n)
  | frameArrival f => exact inFrame_of_ends (ends_frameArrival s f) rfl rfl
  | frameSent => exact inFrame_of_ends (ends_frameSent s) rfl rfl
  | noticeBuild => exact inFrame_of_ends (ends_noticeBuild s) rfl rfl
  | backlogAnswerPlace n =>
    exact inFrame_of_acts (ends_backlogAnswerPlace s n) rfl rfl rfl (othersKept_backlogPlace s n)
  | lampRequestTake => exact inFrame_of_ends (ends_lampRequestTake s) rfl rfl
  | mgmtRequestTake => exact inFrame_of_ends (ends_mgmtRequestTake s) rfl rfl
  | mgmtAnswerPlace => exact inFrame_of_ends (ends_mgmtAnswerPlace s) rfl rfl
  | readTable => exact inFrame_of_ends (ends_readTable s) rfl rfl
  | writeTable => exact inFrame_of_ends (ends_writeTable s) rfl rfl
  | mapRecord => exact inFrame_of_ends (ends_mapRecord s) rfl rfl
  | groupRecord => exact inFrame_of_ends (ends_groupRecord s) rfl rfl
  | calendarRecord => exact inFrame_of_ends (ends_calendarRecord s) rfl rfl
  | blackoutInsert => exact inFrame_of_ends (ends_blackoutInsert s) rfl rfl
  | blackoutRemove => exact inFrame_of_ends (ends_blackoutRemove s) rfl rfl
  | criteriaRecord => exact inFrame_of_ends (ends_criteriaRecord s) rfl rfl
  | policyRecord => exact inFrame_of_ends (ends_policyRecord s) rfl rfl
  | lineRecord => exact inFrame_of_ends (ends_lineRecord s) rfl rfl
  | bridgeRecord => exact inFrame_of_ends (ends_bridgeRecord s) rfl rfl
  | setClock => exact inFrame_of_ends (ends_setClock s) rfl rfl
  | readStatus => exact inFrame_of_ends (ends_readStatus s) rfl rfl
  | schedOn => exact inFrame_of_ends (ends_schedOn s) rfl rfl
  | schedOff => exact inFrame_of_ends (ends_schedOff s) rfl rfl
  | clearFault => exact inFrame_of_ends (ends_clearFault s) rfl rfl
  | setHold => exact inFrame_of_ends (ends_setHold s) rfl rfl
  | clearHold => exact inFrame_of_ends (ends_clearHold s) rfl rfl
  | clearTouched => exact inFrame_of_ends (ends_clearTouched s) rfl rfl
  | armCapture => exact inFrame_of_ends (ends_armCapture s) rfl rfl
  | disarmCapture => exact inFrame_of_ends (ends_disarmCapture s) rfl rfl
  | lineAbort => exact inFrame_of_ends (ends_lineAbort s) rfl rfl
  | lineReset => exact inFrame_of_ends (ends_lineReset s) rfl rfl
  | bridgeReset => exact inFrame_of_ends (ends_bridgeReset s) rfl rfl
  | saveImage => exact inFrame_of_ends (ends_saveImage s) rfl rfl
  | clearEvents => exact inFrame_of_ends (ends_clearEvents s) rfl rfl
  | imageSaveRead => exact inFrame_of_ends (ends_imageSaveRead s) rfl rfl
  | flashOpDone readBack => exact inFrame_of_ends (ends_flashOpDone s readBack) rfl rfl
  | flashOpTimeout => exact inFrame_of_ends (ends_flashOpTimeout s) rfl rfl
  | trunkLinkChange up => exact inFrame_of_ends (ends_trunkLinkChange s up) rfl rfl

/-! ### The statement -/

theorem unitsKept_of_inFrame (h : InFrame c s t) : UnitsKept c s t :=
  ⟨h.parts .rx, h.parts .tx, fun hc => ⟨h.parts .lamp hc, fun hne => h.parts .noticeNumber (by simp [may, hc, hne])⟩,
    h.parts .mgmt, fun hc => Prod.mk.inj (h.parts .pass hc), h.parts .passTimer, h.parts .mains, h.parts .save,
    h.parts .entries, h.parts .lines, h.others, h.parts .capture, h.parts .flags,
    fun hc => Prod.mk.inj (h.parts .notice hc)⟩

theorem flash_of_inFrame (h : InFrame c s t) (hdone : ∀ b, c ≠ .flashOpDone b) (hsave : c ≠ .saveImage) :
    t.flash = s.flash := by
  refine h.parts .flash ?_
  unfold may
  dsimp only
  split
  · exact absurd rfl hsave
  · exact absurd rfl (hdone _)
  · rfl

theorem sameClock_of_inFrame (h : InFrame c s t) (hminute : c ≠ .minuteEvent) (hset : c ≠ .setClock) :
    SameClock s t := by
  obtain ⟨hm, hrest⟩ := Prod.mk.inj (h.parts .clock (by simp [may, hminute, hset]))
  exact ⟨hm, Prod.mk.inj hrest⟩

theorem sameMap_of_inFrame (h : InFrame c s t) (hmap : c ≠ .mapRecord) : SameMap s t := fun i =>
  sameIdentity_iff.mpr (congrFun (h.parts .map (by simp [may, hmap])) i)

theorem powerUp_pending (s : State) (straps : Byte) (answers : Bool) (present : Vector Bool 6) :
    (s.powerUp straps answers present).pending = s.pending := by
  cases h : (if answers then (s.atPowerUp straps).loadImage else none) with
  | none => rw [powerUp_unloaded present h]
  | some loaded =>
    cases answers with
    | false => cases h
    | true =>
      obtain ⟨hload, -⟩ := loadImage_loads (atPowerUp_atRest s straps) (atPowerUp_settled s straps) h
      rw [powerUp_loaded present h]
      dsimp only
      rw [hload.rest]
      rfl

/-- Settles O3: POWER_UP, which acts on every unit, and every other command in its frame. -/
theorem everyCommandCompletesInItsFrame : Obligations.EveryCommandCompletesInItsFrame := by
  intro c s
  by_cases hpower : ∀ st f p, c ≠ .powerUp st f p
  · obtain ⟨t, h⟩ := command_inFrame c s hpower
    have hstation := Prod.mk.inj (h.parts .station rfl)
    exact ⟨t, h.ends, h.parts .pending rfl, unitsKept_of_inFrame h, fun _ => ⟨hstation.1, hstation.2,
      fun hne => h.parts .groups (by simp [may, hne]), fun hne => h.parts .criteria (by simp [may, hne]),
      fun hne => h.parts .policy (by simp [may, hne]), fun hne => h.parts .rows (by simp [may, hne]),
      fun hne => congrFun (h.parts .lineSettings (by simp [may, hne])),
      fun hbridge hon hoff => h.parts .settings (by simp [may, hbridge, hon, hoff]),
      fun hins hrem hmin => h.parts .blackouts (by simp [may, hins, hrem, hmin]),
      sameClock_of_inFrame h, flash_of_inFrame h, sameMap_of_inFrame h⟩⟩
  · obtain ⟨st, f, p, rfl⟩ : ∃ st f p, c = .powerUp st f p := by
      refine Classical.byContradiction fun hnone => ?_
      exact hpower fun st f p hc => hnone ⟨st, f, p, hc⟩
    exact ⟨_, rfl, powerUp_pending s st f p,
      ⟨nofun, nofun, nofun, nofun, nofun, nofun, nofun, nofun, nofun, nofun, nofun, nofun, nofun, nofun⟩,
      fun hne => absurd rfl (hne st f p)⟩

end Sys2Proof.Frames
end

section
/-! One second with no command waiting, seen from one entry and one line (R39, R96, R122, R147, log 4). -/

namespace Sys2Proof.Seconds

open Sys2Proof Sys2Proof.Machine Sys2Proof.Machine.Safety Sys2Proof.Laws Sys2Proof.Walks Sys2Proof.DeviceLaws
  Sys2Proof.LineOrder Sys2Proof.EntryOrder Sys2Proof.SchedulingPass Sys2Proof.LineService Sys2Proof.Captures
  Sys2Proof.Verdicts Sys2Proof.ReportsAndStops Sys2Proof.OwnEntry Sys2Proof.Outages Sys2Proof.Losses
  Sys2Proof.Supply Sys2Proof.CutExchanges Sys2Proof.Probes Sys2Proof.Minutes Sys2Proof.Frames

/-! ### The supply of the lines and the flags -/

theorem linesServed_of_sideWork {s t : State} (h : SideWork s t) : LinesServed s t := fun m => by
  obtain ⟨c, p, hl⟩ := h.lines m
  rw [hl]
  exact ⟨rfl, rfl, rfl, rfl, .rfl⟩

theorem linesServed_of_lines {s t : State} (h : t.lines = s.lines) : LinesServed s t := fun m => by
  rw [line_congr h]
  exact .refl _

theorem linesServed_testWork : TestWork LinesServed where
  refl := linesServed_lineWork.refl
  trans := linesServed_lineWork.trans
  setEntry := fun s i e => linesServed_of_sideWork (sideWork_testWork.setEntry s i e)
  raise := fun s f => linesServed_of_sideWork (sideWork_testWork.raise s f)
  joinPoll := fun s i => linesServed_of_sideWork (sideWork_testWork.joinPoll s i)
  withdrawPoll := fun s i => linesServed_of_sideWork (sideWork_testWork.withdrawPoll s i)
  removeControl := fun s n p => linesServed_of_sideWork (sideWork_testWork.removeControl s n p)

theorem flagsStay_lineWork : LineWork FlagsStay where
  refl := .refl
  trans := .trans
  joinControl := fun s n k i node _ => flagsStay_of_eq (quiet_joinControl s n k i node).flags
  grantTo := fun s n c _ => flagsStay_of_eq (quiet_grantTo s n c).flags

/-! ### The PROBE of an entry -/

/-- A PROBE for the entry waits or is in flight. -/
def PollLive (i : EntryId) (l : LineEngine) : Prop :=
  (∃ p ∈ l.polls, p.entry = i) ∨ ∃ x p, l.engine.exchange = some x ∧ x.work = .poll p ∧ p.entry = i

/-- A PROBE that waits or is in flight goes on to. -/
def KeepsPoll (i : EntryId) (n : LineId) (s t : State) : Prop := PollLive i (s.line n) → PollLive i (t.line n)

section Poll

variable {i j : EntryId} {n m : LineId} {s t : State}

theorem keepsPoll_of_line (h : t.line n = s.line n) : KeepsPoll i n s t := fun hlive => by
  rw [h]
  exact hlive

/-- A change of line `m` that loses no PROBE of the entry and leaves its engine. -/
theorem keepsPoll_setLine {l : LineEngine} (hpolls : ∀ p ∈ (s.line m).polls, p.entry = i → p ∈ l.polls)
    (hengine : l.engine = (s.line m).engine) : KeepsPoll i n s (s.setLine m l) := fun hlive => by
  rw [setLine_line]
  split
  · next hmn =>
    subst hmn
    rcases hlive with ⟨p, hp, hentry⟩ | ⟨x, p, hx, hwork⟩
    · exact .inl ⟨p, hpolls p hp hentry, hentry⟩
    · exact .inr ⟨x, p, by rw [hengine]; exact hx, hwork⟩
  · exact hlive

theorem keepsPoll_refl (s : State) : KeepsPoll i n s s := id

theorem keepsPoll_trans {u : State} (h : KeepsPoll i n s t) (k : KeepsPoll i n t u) : KeepsPoll i n s u :=
  fun hlive => k (h hlive)

theorem keepsPoll_lines (h : t.lines = s.lines) : KeepsPoll i n s t := keepsPoll_of_line (line_congr h n)

theorem keepsPoll_joinPoll (s : State) (j : EntryId) : KeepsPoll i n s (s.joinPoll j) := by
  cases hw : (s.line (s.entry j).line).polls.any (fun p => p.entry == j) with
  | true =>
    rw [joinPoll_waiting hw]
    exact keepsPoll_refl s
  | false =>
    by_cases hn : n = (s.entry j).line
    · subst hn
      intro hlive
      rw [joinPoll_line hw]
      rcases hlive with ⟨p, hp, hentry⟩ | hflight
      · exact .inl ⟨p, (insertPoll_perm _ _).mem_iff.mpr (List.mem_cons_of_mem _ hp), hentry⟩
      · exact .inr hflight
    · exact keepsPoll_of_line ((onlyLine_joinPoll s j).others n hn)

theorem keepsPoll_removal {l : LineEngine} {marks : List (Option Nat × EntryId)} {a : CaptureAnswer}
    (hpolls : ∀ p ∈ (s.line m).polls, p.entry = i → p ∈ l.polls) (hengine : l.engine = (s.line m).engine) :
    KeepsPoll i n s ((s.setLine m l).captureEndAll marks a) :=
  keepsPoll_trans (keepsPoll_setLine hpolls hengine) (keepsPoll_lines (captureEndAll_lines _ _ _))

/-- The PROBE of an entry outlives the work on the others. -/
theorem keepsPoll_ownWork (h : j ≠ i) : OwnWork j (KeepsPoll i n) where
  refl := keepsPoll_refl
  trans := keepsPoll_trans
  setEntry := fun s e _ => keepsPoll_lines rfl
  raise := fun s f => keepsPoll_lines (raise_lines s f)
  joinPoll := fun s => keepsPoll_joinPoll s j
  withdrawPoll := fun s => by
    refine keepsPoll_removal (m := (s.entry j).line) (fun p hp hentry => List.mem_filter.mpr ⟨hp, ?_⟩) rfl
    rw [hentry]
    exact bne_iff_ne.mpr (Ne.symm h)
  removeStops := fun s m _ => keepsPoll_removal (m := m) (fun _ hp _ => hp) rfl

/-- A grant from an IDLE line, which has nothing in flight. -/
theorem keepsPoll_begun {l : LineEngine} {c : Client} {w : Work} {node : Nat} (hidle : (s.line m).engine = .idle)
    (h : ∀ p ∈ (s.line m).polls, p.entry = i → p ∈ l.polls ∨ w = .poll p) :
    KeepsPoll i n s ((s.setLine m l).beginExchange m c w node) := fun hlive => by
  by_cases hn : n = m
  · subst hn
    rw [beginExchange_line, setLine_line_self]
    rcases hlive with ⟨p, hp, hentry⟩ | ⟨x, p, hx, -⟩
    · rcases h p hp hentry with hwaits | hbegun
      · exact .inl ⟨p, hwaits, hentry⟩
      · exact .inr ⟨_, p, rfl, hbegun, hentry⟩
    · rw [hidle] at hx
      cases hx
  · rw [((onlyLine_setLine m s l).trans (onlyLine_beginExchange _ m c w node)).others n hn]
    exact hlive

theorem keepsPoll_lineWork : LineWork (KeepsPoll i n) where
  refl := keepsPoll_refl
  trans := keepsPoll_trans
  joinControl := fun s m k j node _ => by
    by_cases hn : n = m
    · subst hn
      intro hlive
      rw [joinControl_line]
      exact hlive
    · exact keepsPoll_of_line ((onlyLine_joinControl s m k j node).others n hn)
  grantTo := fun s m c hidle => by
    unfold State.grantTo
    dsimp only
    split
    · split
      · exact keepsPoll_begun hidle fun p hp _ => .inl hp
      · exact keepsPoll_refl s
    · split
      · exact keepsPoll_begun hidle fun p hp _ => .inl hp
      · exact keepsPoll_refl s
    · split
      · next r rest hpolls =>
        refine keepsPoll_begun hidle fun p hp _ => ?_
        rw [hpolls] at hp
        rcases List.mem_cons.mp hp with rfl | hrest
        · exact .inr rfl
        · exact .inl hrest
      · exact keepsPoll_refl s

theorem keepsPoll_pollSecond (s : State) (j : EntryId) : KeepsPoll i n s (s.pollSecond j) := by
  unfold State.pollSecond
  split
  · next u hu =>
    split
    · rw [State.pollEnd, pollDue_testing hu]
      exact keepsPoll_trans (keepsPoll_trans (t := reloaded s j u) (keepsPoll_lines rfl) (keepsPoll_joinPoll _ j))
        (keepsPoll_lineWork.settleLine _ _)
    · exact keepsPoll_lines rfl
  · exact keepsPoll_refl s

theorem keepsPoll_minuteEntry (h : j ≠ i) (s : State) : KeepsPoll i n s (s.minuteEntry j) := by
  have w : OwnWork j (KeepsPoll i n) := keepsPoll_ownWork h
  unfold State.minuteEntry
  split
  · next u hu =>
    split
    · by_cases hdown : (s.line (s.entry j).line).engine = .down
      · rw [remainingOut_down hdown]
        exact keepsPoll_trans (w.setEntryState s _) (w.recordVerdict _ _ _)
      · rw [remainingOut_up hdown]
        exact w.toEnding s _
    · exact w.setEntryState s _
  · split
    · exact w.setEntryState s _
    · exact w.setEntryState s _
  · split
    · exact keepsPoll_refl s
    · split
      · exact w.setEntryState s _
      · exact w.setEntryState s _
  all_goals exact keepsPoll_refl s

end Poll

/-! ### The test of an entry -/

/-- A test under way on line `n` goes on, and an entry without one keeps its last verdict. -/
structure Bystander (i : EntryId) (n : LineId) (s t : State) : Prop where
  testing  : ∀ u, (s.entry i).state = .testing u → (s.entry i).line = n → HeldAs (s.entry i) (t.entry i)
  untested : (s.entry i).state.test = none →
    (t.entry i).state.test = none ∧ (t.entry i).lastVerdict = (s.entry i).lastVerdict

section Entry

variable {i j : EntryId} {n m : LineId} {s t : State}

theorem bystander_of_held (h : HeldAs (s.entry i) (t.entry i)) : Bystander i n s t := by
  refine ⟨fun _ _ _ => h, fun htest => ?_⟩
  obtain ⟨held, he⟩ := heldAs_eq h
  rw [he]
  exact ⟨htest, rfl⟩

theorem Bystander.refl (s : State) : Bystander i n s s := bystander_of_held (.inl rfl)

theorem Bystander.trans {u : State} (h : Bystander i n s t) (k : Bystander i n t u) : Bystander i n s u := by
  refine ⟨fun v hv hline => ?_, fun htest => ?_⟩
  · have hst := h.testing v hv hline
    obtain ⟨held, he⟩ := heldAs_eq hst
    exact heldAs_trans hst (k.testing v (by rw [he]; exact hv) (by rw [he]; exact hline))
  · obtain ⟨htest', hlast⟩ := h.untested htest
    obtain ⟨htest'', hlast'⟩ := k.untested htest'
    exact ⟨htest'', hlast'.trans hlast⟩

theorem bystander_of_entries (h : t.entries = s.entries) : Bystander i n s t :=
  bystander_of_held (.inl (entry_congr h i))

theorem bystander_of_starts (h : StartsOnly s t) : Bystander i n s t := by
  have hsame (hp : ∀ u, (s.entry i).state ≠ .pending u) : HeldAs (s.entry i) (t.entry i) := .inl (h.same i hp)
  refine ⟨fun u hu _ => hsame fun v hv => ?_, fun htest => ?_⟩
  · rw [hu] at hv
    cases hv
  · rw [h.same i fun v hv => by rw [hv] at htest; cases htest]
    exact ⟨htest, rfl⟩

theorem bystander_pollSecond (h : j ≠ i) (s : State) : Bystander i n s (s.pollSecond j) := by
  have hstate (st : EntryState) : (s.setEntryState j st).entry i = s.entry i := by rw [setEntryState_entry, if_neg h]
  unfold State.pollSecond
  split
  · next u hu =>
    split
    · rw [State.pollEnd, pollDue_testing hu]
      refine (bystander_of_held (.inl ?_)).trans (bystander_of_starts (startsOnly_settleLine _ _))
      rw [entry_congr (joinPoll_entries _ j), reloaded, hstate]
    · exact bystander_of_held (.inl (hstate _))
  · exact .refl s

theorem bystander_lossEntry (hm : m ≠ n) (s : State) (j : EntryId) : Bystander i n s (s.lossEntry m j) := by
  by_cases h : j = i
  · subst h
    refine ⟨fun u _ hline => .inl ?_, fun htest => ?_⟩
    · rw [lossEntry_elsewhere (.inr (by rw [hline]; exact Ne.symm hm))]
    · rw [lossEntry_untested htest]
      exact ⟨htest, rfl⟩
  · exact bystander_of_held (lossEntry_others h s)

theorem afterOutage_untested {e : Entry} {need : Nat} (h : e.state.test = none) :
    (e.afterOutage need).state.test = none ∧ (e.afterOutage need).lastVerdict = e.lastVerdict := by
  unfold Entry.afterOutage
  split
  · split
    · exact ⟨h, rfl⟩
    · exact ⟨rfl, rfl⟩
  · exact ⟨rfl, rfl⟩
  · split
    · exact ⟨h, rfl⟩
    · exact ⟨rfl, rfl⟩
  all_goals exact ⟨h, rfl⟩

theorem bystander_restoreEntry (x : Nat) (s : State) (j : EntryId) : Bystander i n s (s.restoreEntry m x j) := by
  by_cases h : j = i
  · subst h
    refine ⟨fun u hu _ => .inl ?_, fun htest => ?_⟩
    · rw [restoreEntry_self, restored]
      split
      · exact afterOutage_faulted (.inr (by rw [hu]; rfl))
      · rfl
    · rw [restoreEntry_self, restored]
      split
      · exact afterOutage_untested htest
      · exact ⟨htest, rfl⟩
  · exact bystander_of_held (.inl (restoreEntry_others m x h s).2)

theorem bystander_minuteEntry (h : j ≠ i) (s : State) : Bystander i n s (s.minuteEntry j) :=
  bystander_of_held (minuteEntry_others h s)

end Entry

end Sys2Proof.Seconds
end

section
/-! The stages of one second: the polls, the debounce timers, the retry timers, the seconds phase (R39, R96, R122,
R147, log 4). -/

namespace Sys2Proof.Seconds

open Sys2Proof Sys2Proof.Machine Sys2Proof.Machine.Safety Sys2Proof.Laws Sys2Proof.Walks Sys2Proof.DeviceLaws
  Sys2Proof.LineOrder Sys2Proof.EntryOrder Sys2Proof.SchedulingPass Sys2Proof.LineService Sys2Proof.Captures
  Sys2Proof.Verdicts Sys2Proof.ReportsAndStops Sys2Proof.OwnEntry Sys2Proof.Outages Sys2Proof.Losses
  Sys2Proof.Supply Sys2Proof.CutExchanges Sys2Proof.Probes Sys2Proof.Minutes Sys2Proof.Frames
  Sys2Proof.ClockAndCalendar

variable {i j : EntryId} {n m : LineId} {s t : State} {u : CurrentTest}

/-! ### What a step leaves of an entry and of Mains Sense on its line -/

/-- No flag falls, the settings stand, and the entry and its PROBE go on. -/
structure Aside (i : EntryId) (n : LineId) (s t : State) : Prop where
  settings : t.settings = s.settings
  flags    : FlagsStay s t
  entry    : Bystander i n s t
  poll     : KeepsPoll i n s t

/-- The same, and Mains Sense of the line as it was. -/
structure Elsewhere (i : EntryId) (n : LineId) (s t : State) : Prop extends Aside i n s t where
  mains : t.mainsLine n = s.mainsLine n

theorem Aside.trans {v : State} (h : Aside i n s t) (k : Aside i n t v) : Aside i n s v :=
  ⟨k.settings.trans h.settings, h.flags.trans k.flags, h.entry.trans k.entry, keepsPoll_trans h.poll k.poll⟩

theorem Aside.refl (s : State) : Aside i n s s := ⟨rfl, .refl s, .refl s, keepsPoll_refl s⟩

theorem Elsewhere.refl (s : State) : Elsewhere i n s s := ⟨.refl s, rfl⟩

theorem Elsewhere.trans {v : State} (h : Elsewhere i n s t) (k : Elsewhere i n t v) : Elsewhere i n s v :=
  ⟨h.toAside.trans k.toAside, k.mains.trans h.mains⟩

theorem mainsLine_of_mains (h : t.mains = s.mains) (n : LineId) : t.mainsLine n = s.mainsLine n := by
  rw [State.mainsLine, h]
  rfl

/-! ### The polls (R96) -/

/-- The polls of a second. -/
def polled (s : State) : State := forEntries State.pollSecond s

theorem kept_polled (s : State) : Kept s (polled s) := kept_forEntries _ kept_pollSecond s

theorem flagsStay_polled (s : State) : FlagsStay s (polled s) :=
  flagsStay_testWork.forEntries (fun i t => pollSecond_walk flagsStay_testWork flagsStay_lineWork i t) s

theorem linesServed_polled (s : State) : LinesServed s (polled s) :=
  linesServed_testWork.forEntries (fun i t => pollSecond_walk linesServed_testWork linesServed_lineWork i t) s

/-- Poll due a second later, on a line of a poll period. -/
def countedTest (period : Nat) (u : CurrentTest) : CurrentTest :=
  { u with pollDue := if u.pollDue ≤ 1 then period else u.pollDue - 1 }

/-- The entry's own second. -/
theorem pollSecond_own (hu : (s.entry i).state = .testing u) :
    (s.pollSecond i).entry i =
      { s.entry i with state := .testing (countedTest (s.line (s.entry i).line).settings.pollPeriod u) } ∧
    (u.pollDue ≤ 1 → PollLive i ((s.pollSecond i).line (s.entry i).line)) := by
  unfold State.pollSecond
  rw [hu]
  dsimp only
  split
  · next hdue =>
    have hreload := reloaded_entry s i u
    have hjoined : ((reloaded s i u).joinPoll i).entry i = (reloaded s i u).entry i :=
      entry_congr (joinPoll_entries _ i) i
    rw [State.pollEnd, pollDue_testing hu]
    refine ⟨?_, fun _ => ?_⟩
    · rw [(startsOnly_settleLine _ _).same i (by rw [hjoined, hreload]; exact nofun), hjoined, hreload, countedTest,
        if_pos hdue]
    · have hline : ((reloaded s i u).entry i).line = (s.entry i).line := by rw [hreload]
      have hwaits := joinPoll_waits (reloaded s i u) i
      rw [hline] at hwaits
      exact keepsPoll_lineWork.settleLine _ _ (.inl hwaits)
  · next hdue =>
    refine ⟨?_, fun h => absurd h hdue⟩
    rw [setEntryState_entry_self, countedTest, if_neg hdue]

/-- Behind the polls the test has counted its second, and a PROBE that fell due waits or is in flight. -/
theorem polled_entry (hu : (s.entry i).state = .testing u) :
    (∃ held, (polled s).entry i = { s.entry i with
      state := .testing (countedTest (s.line (s.entry i).line).settings.pollPeriod u), held := held }) ∧
    (u.pollDue ≤ 1 → PollLive i ((polled s).line (s.entry i).line)) := by
  obtain ⟨a, ⟨hkept, hbefore, -⟩, -, hbehind, hpoll⟩ := forEntries_at (i := i) (f := State.pollSecond)
    (R := fun s t => Kept s t ∧ Bystander i (s.entry i).line s t ∧ KeepsPoll i (s.entry i).line s t)
    (fun s => ⟨.refl s, .refl s, keepsPoll_refl s⟩)
    (fun {s t v} h k => by
      obtain ⟨hkept, hentry, hpoll⟩ := h
      obtain ⟨hkept', hentry', hpoll'⟩ := k
      obtain ⟨-, -, hline, -⟩ := hkept.map i
      rw [hline] at hentry' hpoll'
      exact ⟨hkept.trans hkept', hentry.trans hentry', keepsPoll_trans hpoll hpoll'⟩)
    (fun j t hj => ⟨kept_pollSecond j t, bystander_pollSecond hj t, keepsPoll_pollSecond t j⟩) s
  obtain ⟨held, ha⟩ := heldAs_eq (hbefore.testing u hu rfl)
  have hline : (a.entry i).line = (s.entry i).line := by rw [ha]
  obtain ⟨hown, hlive⟩ := pollSecond_own (s := a) (i := i) (u := u) (by rw [ha]; exact hu)
  have hownLine : ((a.pollSecond i).entry i).line = (s.entry i).line := by rw [hown, hline]
  rw [hline, hkept.lineSettings] at hown
  obtain ⟨held', he⟩ := heldAs_eq (hbehind.testing _ (by rw [hown]) rfl)
  refine ⟨⟨held', he.trans ?_⟩, fun hdue => ?_⟩
  · rw [hown, ha]
  · rw [hownLine] at hpoll
    exact hpoll (hline ▸ hlive hdue)

/-! ### The debounce timers (R122) -/

/-- The debounce timers of a second. -/
def sensed (s : State) : State := forLines State.mainsSecond (polled s)

/-- The loss debounce of a line runs out with this second. -/
def LossDue (n : LineId) (s : State) : Prop := ∃ k, (s.mainsLine n).sense = .lossPending k ∧ k ≤ 1

/-- A second of Mains Sense on a line is a debounced event or counts. -/
theorem mainsSecond_cases (s : State) (n : LineId) :
    (LossDue n s ∧ s.mainsSecond n = s.debouncedLoss n) ∨ s.mainsSecond n = s.debouncedRestore n ∨
      (∃ m, s.mainsSecond n = s.setMains n m) ∨ s.mainsSecond n = s := by
  unfold State.mainsSecond
  split
  · next k hk =>
    split
    · next hdue => exact .inl ⟨⟨k, hk, hdue⟩, rfl⟩
    · exact .inr (.inr (.inl ⟨_, rfl⟩))
  · split
    · exact .inr (.inl rfl)
    · exact .inr (.inr (.inl ⟨_, rfl⟩))
  · exact .inr (.inr (.inr rfl))
  · exact .inr (.inr (.inr rfl))

theorem mainsSecond_lossDue {k : Nat} (h : (s.mainsLine n).sense = .lossPending k) (hdue : k ≤ 1) :
    s.mainsSecond n = s.debouncedLoss n := by
  rw [State.mainsSecond, h]
  exact if_pos hdue

theorem mainsSecond_loss {k : Nat} (h : (s.mainsLine n).sense = .lossPending k) (hrun : 2 ≤ k) :
    s.mainsSecond n = s.setMains n { s.mainsLine n with sense := .lossPending (k - 1) } := by
  rw [State.mainsSecond, h]
  exact if_neg (Nat.not_le.mpr hrun)

theorem mainsSecond_restoreDue {k : Nat} (h : (s.mainsLine n).sense = .restorePending k) (hdue : k ≤ 1) :
    s.mainsSecond n = s.debouncedRestore n := by
  rw [State.mainsSecond, h]
  exact if_pos hdue

theorem mainsSecond_restore {k : Nat} (h : (s.mainsLine n).sense = .restorePending k) (hrun : 2 ≤ k) :
    s.mainsSecond n = s.setMains n { s.mainsLine n with sense := .restorePending (k - 1) } := by
  rw [State.mainsSecond, h]
  exact if_neg (Nat.not_le.mpr hrun)

theorem mainsSecond_still (h : (s.mainsLine n).sense = .present ∨ (s.mainsLine n).sense = .absent) :
    s.mainsSecond n = s := by
  rcases h with h | h
  · rw [State.mainsSecond, h]
  · rw [State.mainsSecond, h]

theorem touches_mainsSecond (s : State) (n : LineId) :
    Touches [.mains, .entries, .lines, .capture, .flags, .notice] s (s.mainsSecond n) := by
  rcases mainsSecond_cases s n with ⟨-, h⟩ | h | ⟨m, h⟩ | h
  · rw [h]
    exact touches_debouncedLoss s n
  · rw [h]
    exact (touches_debouncedRestore s n).mono (by simp)
  · rw [h]
    exact (touches_setMains s n m).mono (by simp)
  · rw [h]
    exact .refl _ s

/-- What holds of Mains Sense's writes, the work on tests and the service of a line holds of a loss. -/
theorem debouncedLoss_walk {R : State → State → Prop} (w : TestWork R) (l : LineWork R)
    (hmains : ∀ s m, R s (s.setMains n m)) (s : State) : R s (s.debouncedLoss n) := by
  unfold State.debouncedLoss
  split
  · exact w.trans (w.trans (w.trans (hmains s _) (w.forEntries (fun i t => w.lossEntry n i t) _)) (w.raise _ _))
      (l.settleLine _ n)
  · exact w.refl s

/-- What holds of Mains Sense's writes and the work on tests holds of a restore. -/
theorem debouncedRestore_walk {R : State → State → Prop} (w : TestWork R) (hmains : ∀ s m, R s (s.setMains n m))
    (s : State) : R s (s.debouncedRestore n) := by
  unfold State.debouncedRestore
  dsimp only
  split
  · exact w.trans (w.trans (hmains s _) (w.forEntries (fun i t => w.restoreEntry n _ i t) _)) (w.raise _ _)
  · exact w.refl s

theorem mainsSecond_walk {R : State → State → Prop} (w : TestWork R) (l : LineWork R)
    (hmains : ∀ s m, R s (s.setMains n m)) (s : State) : R s (s.mainsSecond n) := by
  rcases mainsSecond_cases s n with ⟨-, h⟩ | h | ⟨m, h⟩ | h
  · rw [h]
    exact debouncedLoss_walk w l hmains s
  · rw [h]
    exact debouncedRestore_walk w hmains s
  · rw [h]
    exact hmains s m
  · rw [h]
    exact w.refl s

theorem linesServed_mainsSecond (s : State) (n : LineId) : LinesServed s (s.mainsSecond n) :=
  mainsSecond_walk linesServed_testWork linesServed_lineWork (fun _ _ => linesServed_of_lines rfl) s

theorem flagsStay_mainsSecond (s : State) (n : LineId) : FlagsStay s (s.mainsSecond n) :=
  mainsSecond_walk flagsStay_testWork flagsStay_lineWork (fun _ _ => flagsStay_of_eq rfl) s

/-- A second of another line leaves Mains Sense of a line. -/
theorem mainsSecond_others (h : m ≠ n) (s : State) : (s.mainsSecond m).mainsLine n = s.mainsLine n := by
  have hset (x : MainsLine) : (s.setMains m x).mainsLine n = s.mainsLine n := by
    rw [setMains_mainsLine, if_neg h]
  rcases mainsSecond_cases s m with ⟨-, he⟩ | he | ⟨x, he⟩ | he
  · rw [he]
    unfold State.debouncedLoss
    split
    · exact (mainsLine_of_mains (((kept_forEntries _ (kept_lossEntry m) _).trans (kept_raise _ _)).trans
        (kept_settleLine _ m)).mains n).trans (hset _)
    · rfl
  · rw [he]
    unfold State.debouncedRestore
    dsimp only
    split
    · exact (mainsLine_of_mains ((kept_forEntries _ (kept_restoreEntry m _) _).trans (kept_raise _ _)).mains n).trans
        (hset _)
    · rfl
  · rw [he]
    exact hset x
  · rw [he]

theorem bystander_debouncedLoss (h : m ≠ n) (s : State) : Bystander i n s (s.debouncedLoss m) := by
  unfold State.debouncedLoss
  split
  · have hloss (v : State) : Bystander i n v (forEntries (State.lossEntry m) v) :=
      foldl_walk Bystander.refl Bystander.trans (fun v j => bystander_lossEntry h v j) _ v
    have hset : Bystander i n s (s.setMains m .atLoss) := bystander_of_entries rfl
    exact ((hset.trans (hloss _)).trans
      (bystander_of_entries (raise_entries _ _))).trans (bystander_of_starts (startsOnly_settleLine _ m))
  · exact .refl s

theorem bystander_debouncedRestore (s : State) (m : LineId) : Bystander i n s (s.debouncedRestore m) := by
  unfold State.debouncedRestore
  dsimp only
  split
  · have hrestore (x : Nat) (v : State) : Bystander i n v (forEntries (State.restoreEntry m x) v) :=
      foldl_walk Bystander.refl Bystander.trans (fun v j => bystander_restoreEntry x v j) _ v
    have hset (x : MainsLine) : Bystander i n s (s.setMains m x) := bystander_of_entries rfl
    exact ((hset _).trans (hrestore _ _)).trans
      (bystander_of_entries (raise_entries _ _))
  · exact .refl s

theorem debouncedRestore_lines (s : State) (m : LineId) : (s.debouncedRestore m).lines = s.lines :=
  touches_debouncedRestore s m .lines (by simp)

/-- A second of Mains Sense that ends no test of the line. -/
theorem aside_mainsSecond (h : m = n → ¬LossDue n s) : Aside i n s (s.mainsSecond m) := by
  refine ⟨touches_mainsSecond s m .settings (by simp), flagsStay_mainsSecond s m, ?_, ?_⟩
  · rcases mainsSecond_cases s m with ⟨hdue, he⟩ | he | ⟨x, he⟩ | he
    · rw [he]
      exact bystander_debouncedLoss (fun hmn => h hmn (hmn ▸ hdue)) s
    · rw [he]
      exact bystander_debouncedRestore s m
    · rw [he]
      exact bystander_of_entries rfl
    · rw [he]
      exact .refl s
  · rcases mainsSecond_cases s m with ⟨hdue, he⟩ | he | ⟨x, he⟩ | he
    · rw [he]
      exact keepsPoll_of_line (othersKept_debouncedLoss s m n fun hnm => h hnm.symm (hnm ▸ hdue))
    · rw [he]
      exact keepsPoll_lines (debouncedRestore_lines s m)
    · rw [he]
      exact keepsPoll_lines rfl
    · rw [he]
      exact keepsPoll_refl s

/-- A line's own second of Mains Sense, among those of the others. -/
theorem sensed_at (s : State) (n : LineId) (i : EntryId) :
    ∃ a, Elsewhere i n (polled s) a ∧ Elsewhere i n (a.mainsSecond n) (sensed s) :=
  forLines_at Elsewhere.refl Elsewhere.trans
    (fun _ v hm => ⟨aside_mainsSecond fun h => absurd h hm, mainsSecond_others hm v⟩) _

theorem linesServed_sensed (s : State) : LinesServed s (sensed s) :=
  linesServed_lineWork.trans (linesServed_polled s)
    (linesServed_testWork.forLines (fun n t => linesServed_mainsSecond t n) _)

/-! ### The retry timers (R147) -/

/-- The lines served behind the retry timers of a second. -/
def retried (s : State) : State := (forLines State.retrySecond (sensed s)).settleLines

theorem retrySecond_cases (s : State) (n : LineId) : s.retrySecond n = s ∨
    ∃ on timer due, s.retrySecond n =
      s.setLine n { s.line n with supplyOn := on, retryTimer := timer, senseDue := due } := by
  unfold State.retrySecond
  split
  · split
    · unfold State.supplyRetry
      dsimp only
      split
      · exact .inr ⟨_, _, _, rfl⟩
      · exact .inl rfl
    · exact .inr ⟨_, _, _, rfl⟩
  · exact .inl rfl

theorem elsewhere_retrySecond (s : State) (m : LineId) : Elsewhere i n s (s.retrySecond m) := by
  rcases retrySecond_cases s m with h | ⟨on, timer, due, h⟩
  · rw [h]
    exact .refl s
  · rw [h]
    exact ⟨⟨rfl, flagsStay_of_eq rfl, bystander_of_entries rfl, keepsPoll_setLine (fun _ hp _ => hp) rfl⟩, rfl⟩

theorem touches_retrySecond (s : State) (m : LineId) : Touches [.lines] s (s.retrySecond m) := by
  rcases retrySecond_cases s m with h | ⟨on, timer, due, h⟩
  · rw [h]
    exact .refl _ s
  · rw [h]
    exact touches_line s m rfl

theorem retrySecond_others (h : m ≠ n) (s : State) : (s.retrySecond m).line n = s.line n := by
  rcases retrySecond_cases s m with he | ⟨on, timer, due, he⟩
  · rw [he]
  · rw [he, setLine_line_ne s _ h]

theorem elsewhere_settleLines (s : State) : Elsewhere i n s s.settleLines := by
  have hkept := kept_settleLines s
  exact ⟨⟨hkept.settings, flagsStay_lineWork.settleLines s, bystander_of_starts (startsOnly_settleLines s),
    keepsPoll_lineWork.settleLines s⟩, mainsLine_of_mains hkept.mains n⟩

theorem elsewhere_retried (s : State) : Elsewhere i n (sensed s) (retried s) :=
  (foldl_walk Elsewhere.refl Elsewhere.trans (fun v m => elsewhere_retrySecond v m) _ (sensed s) :
    Elsewhere i n (sensed s) (forLines State.retrySecond (sensed s))).trans (elsewhere_settleLines _)

/-- A line's own second of its retry timer, among those of the others. -/
theorem retried_at (s : State) (n : LineId) :
    ∃ a : State, Served (s.line n) (a.line n) ∧ Served ((a.retrySecond n).line n) ((retried s).line n) := by
  obtain ⟨a, hbefore, hbehind⟩ := forLines_at (n := n) (f := State.retrySecond) (R := fun s t => t.line n = s.line n)
    (fun _ => rfl) (fun h k => k.trans h) (fun m t hm => retrySecond_others hm t) (sensed s)
  refine ⟨a, ?_, ?_⟩
  · rw [hbefore]
    exact linesServed_sensed s n
  · rw [← hbehind]
    exact linesServed_lineWork.settleLines _ n

/-- The clock, the settings and the waiting commands are not touched before the seconds phase. -/
theorem touches_retried (s : State) :
    Touches [.mains, .entries, .lines, .capture, .flags, .notice, .tx] s (retried s) := by
  have hsensed : Touches [.mains, .entries, .lines, .capture, .flags, .notice, .tx] (polled s) (sensed s) :=
    foldl_walk (Touches.refl _) Touches.trans (fun v m => (touches_mainsSecond v m).mono (by simp)) _ _
  have hretried : Touches [.mains, .entries, .lines, .capture, .flags, .notice, .tx] (sensed s)
      (forLines State.retrySecond (sensed s)) :=
    foldl_walk (Touches.refl _) Touches.trans (fun v m => (touches_retrySecond v m).mono (by simp)) _ _
  exact ((((touches_kept (kept_polled s)).mono (by simp)).trans hsensed).trans hretried).trans
    ((touches_settleLines _).mono (by simp))

theorem tick_eq (s : State) : s.tick = (retried s).phaseSecond := rfl

end Sys2Proof.Seconds
end

section
/-! The idle step (R38, R39, R96, R122, R123, R127, R129, R147, log 4). -/

namespace Sys2Proof.Seconds

open Sys2Proof Sys2Proof.Machine Sys2Proof.Machine.Safety Sys2Proof.Laws Sys2Proof.Walks Sys2Proof.DeviceLaws
  Sys2Proof.LineOrder Sys2Proof.EntryOrder Sys2Proof.SchedulingPass Sys2Proof.LineService Sys2Proof.Captures
  Sys2Proof.Verdicts Sys2Proof.OwnEntry Sys2Proof.Outages Sys2Proof.Losses Sys2Proof.Supply Sys2Proof.Probes
  Sys2Proof.Minutes Sys2Proof.Frames Sys2Proof.ClockAndCalendar

variable {i : EntryId} {n : LineId} {s : State} {u : CurrentTest}

/-! ### The seconds phase (R38, R39) -/

theorem phaseSecond_minute (h : s.seconds = 59) : s.phaseSecond = s.minuteTick := if_pos (Nat.le_of_eq h.symm)

theorem phaseSecond_counts (h : s.seconds < 59) : s.phaseSecond = { s with seconds := s.seconds + 1 } :=
  if_neg (Nat.not_le.mpr h)

theorem flagsStay_minuteTick (s : State) : FlagsStay s s.minuteTick := by
  obtain ⟨-, -, -, hflags, -⟩ := beforeEntries s
  obtain ⟨-, hrest⟩ := minuteTick_settles s
  exact ((flagsStay_of_eq hflags).trans (flagsStay_testWork.forEntries flagsStay_testWork.minuteEntry _)).trans hrest

theorem flagsStay_phaseSecond (s : State) : FlagsStay s s.phaseSecond := by
  unfold State.phaseSecond
  split
  · exact flagsStay_minuteTick s
  · exact flagsStay_of_eq rfl

theorem linesServed_minuteTick (s : State) : LinesServed s s.minuteTick := by
  obtain ⟨-, hlines, -⟩ := beforeEntries s
  have hcounted : LinesServed s (minuteCounted s) := linesServed_testWork.trans (linesServed_of_lines hlines)
    (linesServed_testWork.forEntries linesServed_testWork.minuteEntry _)
  have hrest (c : State) : LinesServed c c.mainsMinute.expireBlackouts.settleLines :=
    linesServed_testWork.trans (t := c.mainsMinute.expireBlackouts) (linesServed_of_lines rfl)
      (linesServed_lineWork.settleLines _)
  exact linesServed_testWork.trans hcounted (hrest _)

theorem linesServed_phaseSecond (s : State) : LinesServed s s.phaseSecond := by
  unfold State.phaseSecond
  split
  · exact linesServed_minuteTick s
  · exact linesServed_of_lines rfl

theorem minuteEntry_more (hu : (s.entry i).state = .testing u) (hmore : 2 ≤ u.remaining) :
    s.minuteEntry i = s.setEntryState i (.testing { u with remaining := u.remaining - 1 }) := by
  unfold State.minuteEntry
  rw [hu]
  exact if_neg (Nat.not_le.mpr hmore)

/-- A minute event leaves the PROBE of a test with minutes left. -/
theorem keepsPoll_minuteTick (hu : (s.entry i).state = .testing u) (hmore : 2 ≤ u.remaining) :
    KeepsPoll i n s s.minuteTick := by
  obtain ⟨hentries, hlines, -⟩ := beforeEntries s
  obtain ⟨a, ⟨hbefore, hpoll⟩, -, hpoll'⟩ := forEntries_at (i := i) (f := State.minuteEntry)
    (R := fun s t => HeldAs (s.entry i) (t.entry i) ∧ KeepsPoll i n s t)
    (fun s => ⟨.inl rfl, keepsPoll_refl s⟩)
    (fun h k => ⟨heldAs_trans h.1 k.1, keepsPoll_trans h.2 k.2⟩)
    (fun j t hj => ⟨minuteEntry_others hj t, keepsPoll_minuteEntry hj t⟩) s.clockMinute.passMinute
  obtain ⟨held, ha⟩ := heldAs_eq hbefore
  rw [entry_congr hentries] at ha
  have hown : KeepsPoll i n a (a.minuteEntry i) := by
    rw [minuteEntry_more (by rw [ha]; exact hu) hmore]
    exact keepsPoll_lines rfl
  have hrest (c : State) : KeepsPoll i n c c.mainsMinute.expireBlackouts.settleLines :=
    keepsPoll_trans (t := c.mainsMinute.expireBlackouts) (keepsPoll_lines rfl) (keepsPoll_lineWork.settleLines _)
  have hcounted : KeepsPoll i n s (minuteCounted s) :=
    keepsPoll_trans (keepsPoll_trans (keepsPoll_trans (keepsPoll_lines hlines) hpoll) hown) hpoll'
  exact keepsPoll_trans hcounted (hrest _)

theorem minuteTick_untested (h : (s.entry i).state.test = none) :
    (s.minuteTick.entry i).lastVerdict = (s.entry i).lastVerdict := by
  obtain ⟨held, he⟩ := minute_counts (s := s) (i := i) fun v hv => by rw [hv] at h; cases h
  obtain ⟨hstarts, -⟩ := minuteTick_settles s
  rcases hstarts i with hsame | ⟨v, -, hsent⟩
  · rw [hsame, he]
  · rw [hsent, he]

/-- The seconds phase leaves the verdict of an entry without a test. -/
theorem phaseSecond_untested (h : (s.entry i).state.test = none) :
    (s.phaseSecond.entry i).lastVerdict = (s.entry i).lastVerdict := by
  unfold State.phaseSecond
  split
  · exact minuteTick_untested h
  · rfl

/-- A test with minutes left, and its PROBE, behind the seconds phase. -/
theorem phaseSecond_testing (hs : s.seconds ≤ 59) (hu : (s.entry i).state = .testing u)
    (hmore : s.seconds < 59 ∨ 2 ≤ u.remaining) :
    (s.phaseSecond.entry i).state =
      .testing { u with remaining := if s.seconds = 59 then u.remaining - 1 else u.remaining } ∧
    KeepsPoll i n s s.phaseSecond := by
  by_cases h59 : s.seconds = 59
  · have hleft : 2 ≤ u.remaining := hmore.resolve_left (by omega)
    have hcourse := minute_course (s := s) (i := i)
      (fun v hv => by rw [← EntryState.testing.inj (hu.symm.trans hv)]; exact hleft)
      (fun v hv => by rw [hu] at hv; cases hv)
    rw [phaseSecond_minute h59, hcourse, minuteCourse, hu, if_pos h59]
    exact ⟨rfl, keepsPoll_minuteTick hu hleft⟩
  · rw [phaseSecond_counts (by omega), if_neg h59]
    exact ⟨hu, keepsPoll_lines rfl⟩

/-! ### The clock and the waiting commands -/

theorem retried_clock (s : State) : (retried s).minute = s.minute ∧ (retried s).clockValid = s.clockValid ∧
    (retried s).seconds = s.seconds := by
  obtain ⟨hminute, hrest⟩ := Prod.mk.inj (touches_retried s .clock (by simp))
  exact ⟨hminute, Prod.mk.inj hrest⟩

theorem phaseSecond_pending (s : State) : s.phaseSecond.pending = s.pending := by
  unfold State.phaseSecond
  split
  · exact touches_minuteRest s .pending (by simp [minuteParts])
  · rfl

theorem tick_pending (s : State) : s.tick.pending = s.pending := by
  rw [tick_eq, phaseSecond_pending]
  exact touches_retried s .pending (by simp)

theorem tick_counts (h : s.seconds < 59) : s.tick.seconds = s.seconds + 1 ∧ s.tick.minute = s.minute := by
  obtain ⟨hminute, -, hseconds⟩ := retried_clock s
  rw [tick_eq, phaseSecond_counts (by rw [hseconds]; exact h)]
  dsimp only
  rw [hseconds]
  exact ⟨rfl, hminute⟩

theorem tick_minute (h : s.seconds = 59) : s.tick.seconds = 0 ∧
    s.tick.minute = if s.clockValid = true ∧ s.minute < maxMinute then s.minute + 1 else s.minute := by
  obtain ⟨hminute, hvalid, hseconds⟩ := retried_clock s
  obtain ⟨hzero, -, hclock, -⟩ := minuteTick_fields (retried s)
  rw [tick_eq, phaseSecond_minute (hseconds.trans h)]
  refine ⟨hzero, hclock.trans ?_⟩
  unfold State.clockMinute
  dsimp only
  rw [hminute, hvalid]
  simp only [Bool.and_eq_true, decide_eq_true_eq]

/-! ### Tests (R96, R123) -/

/-- A test on a line without a loss due, before the seconds phase. -/
theorem retried_testing (hu : (s.entry i).state = .testing u) (hloss : ¬LossDue (s.entry i).line s) :
    ((retried s).entry i).state = .testing (countedTest (s.line (s.entry i).line).settings.pollPeriod u) ∧
      (u.pollDue ≤ 1 → PollLive i ((retried s).line (s.entry i).line)) := by
  obtain ⟨⟨held, hpolled⟩, hlive⟩ := polled_entry hu
  obtain ⟨a, hbefore, hbehind⟩ := sensed_at s (s.entry i).line i
  have hmains : a.mainsLine (s.entry i).line = s.mainsLine (s.entry i).line :=
    hbefore.mains.trans (mainsLine_of_mains (kept_polled s).mains _)
  have hown : Aside i (s.entry i).line a (a.mainsSecond (s.entry i).line) :=
    aside_mainsSecond fun _ => by
      rw [LossDue, hmains]
      exact hloss
  have hall := (hbefore.toAside.trans hown).trans (hbehind.toAside.trans (elsewhere_retried s).toAside)
  obtain ⟨held', he⟩ := heldAs_eq (hall.entry.testing _ (by rw [hpolled]) (by rw [hpolled]))
  refine ⟨?_, fun hdue => hall.poll (hlive hdue)⟩
  rw [he, hpolled]

/-- A loss ends a test ABORTED_OUTAGE, and leaves none. -/
theorem debouncedLoss_ends {k : Nat} (hsense : (s.mainsLine n).sense = .lossPending k) (hin : (s.entry i).inUse = true)
    (hline : (s.entry i).line = n) (hu : (s.entry i).state = .testing u) :
    ((s.debouncedLoss n).entry i).lastVerdict = some (.abortedOutage, u.kind) ∧
      ((s.debouncedLoss n).entry i).state.test = none := by
  obtain ⟨t, hexec, -, -, -, -, hentries⟩ := Losses.debouncedLoss s n k hsense
  obtain rfl : s.debouncedLoss n = t := Host.Outcome.next.inj hexec
  obtain ⟨-, hhere⟩ := hentries i
  obtain ⟨htest, -⟩ := hhere hin hline
  obtain ⟨hlast, hhalt, hgo⟩ := htest u (.inl hu)
  refine ⟨hlast, ?_⟩
  cases hp : s.policy[6] with
  | true => rw [hhalt hp]; rfl
  | false =>
    rw [hgo hp]
    dsimp only
    split
    · rfl
    · rfl

/-- A test on a line with a loss due, before the seconds phase. -/
theorem retried_lost (hu : (s.entry i).state = .testing u) (hloss : LossDue (s.entry i).line s)
    (hin : (s.entry i).inUse = true) :
    ((retried s).entry i).lastVerdict = some (.abortedOutage, u.kind) ∧ ((retried s).entry i).state.test = none := by
  obtain ⟨k, hsense, hdue⟩ := hloss
  obtain ⟨⟨held, hpolled⟩, -⟩ := polled_entry hu
  obtain ⟨a, hbefore, hbehind⟩ := sensed_at s (s.entry i).line i
  have hmains : a.mainsLine (s.entry i).line = s.mainsLine (s.entry i).line :=
    hbefore.mains.trans (mainsLine_of_mains (kept_polled s).mains _)
  rw [← hmains] at hsense
  obtain ⟨held', ha⟩ := heldAs_eq (hbefore.entry.testing _ (by rw [hpolled]) (by rw [hpolled]))
  rw [hpolled] at ha
  obtain ⟨hlast, htest⟩ := debouncedLoss_ends (i := i) hsense (by rw [ha]; exact hin) (by rw [ha]) (by rw [ha])
  rw [← mainsSecond_lossDue hsense hdue] at hlast htest
  obtain ⟨htest', hlast'⟩ := (hbehind.trans (elsewhere_retried s)).entry.untested htest
  exact ⟨hlast'.trans hlast, htest'⟩

/-! ### Mains Sense (R122, R127, R129) -/

/-- A line's own second of Mains Sense, in the whole second. -/
theorem tick_senses (s : State) (n : LineId) : ∃ a : State, a.mainsLine n = s.mainsLine n ∧ a.settings = s.settings ∧
    (retried s).mainsLine n = (a.mainsSecond n).mainsLine n ∧ FlagsStay (a.mainsSecond n) s.tick := by
  obtain ⟨a, hbefore, hbehind⟩ := sensed_at s n 0
  have hkept := kept_polled s
  have hretried := hbehind.trans (elsewhere_retried s)
  exact ⟨a, hbefore.mains.trans (mainsLine_of_mains hkept.mains n), hbefore.settings.trans hkept.settings,
    hretried.mains, hretried.flags.trans (flagsStay_phaseSecond _)⟩

theorem counted_mainsLine (s : State) (k : Nat) (n : LineId) :
    State.mainsLine { s with seconds := k } n = s.mainsLine n := rfl

theorem tick_mainsLine (hs : s.seconds ≤ 59) (n : LineId) : s.tick.mainsLine n =
    if s.seconds = 59 then ((retried s).mainsLine n).minute else (retried s).mainsLine n := by
  obtain ⟨-, -, hseconds⟩ := retried_clock s
  rw [tick_eq]
  split
  · next h59 =>
    obtain ⟨-, -, -, -, hmains, -⟩ := minuteTick_fields (retried s)
    rw [phaseSecond_minute (hseconds.trans h59), hmains]
  · rw [phaseSecond_counts (by omega)]
    exact counted_mainsLine _ _ n

theorem tick_sense (hs : s.seconds ≤ 59) (n : LineId) :
    (s.tick.mainsLine n).sense = ((retried s).mainsLine n).sense := by
  rw [tick_mainsLine hs]
  generalize (retried s).mainsLine n = m
  split
  · rfl
  · rfl

theorem tick_holdOff (hs : s.seconds ≤ 59) (n : LineId) : (s.tick.mainsLine n).holdOff =
    if s.seconds = 59 then ((retried s).mainsLine n).holdOff - 1 else ((retried s).mainsLine n).holdOff := by
  rw [tick_mainsLine hs]
  generalize (retried s).mainsLine n = m
  split
  · rfl
  · rfl

theorem debouncedLoss_senses {k : Nat} (hsense : (s.mainsLine n).sense = .lossPending k) :
    ((s.debouncedLoss n).mainsLine n).sense = .absent ∧ (s.debouncedLoss n).flag .outageStart = true := by
  obtain ⟨t, hexec, hmains, -, hflag, -⟩ := Losses.debouncedLoss s n k hsense
  obtain rfl : s.debouncedLoss n = t := Host.Outcome.next.inj hexec
  exact ⟨by rw [hmains], hflag⟩

theorem debouncedRestore_senses {k : Nat} (hsense : (s.mainsLine n).sense = .restorePending k) :
    ((s.debouncedRestore n).mainsLine n).sense = .present ∧
      ((s.debouncedRestore n).mainsLine n).holdOff = s.settings.holdOff ∧
      (s.debouncedRestore n).flag .outageEnd = true := by
  obtain ⟨t, hexec, hmains, -, -, hflag, -⟩ := Outages.debouncedRestore s n k hsense
  obtain rfl : s.debouncedRestore n = t := Host.Outcome.next.inj hexec
  exact ⟨by rw [hmains], by rw [hmains], hflag⟩

/-! ### The retry timer (R147) -/

theorem retrySecond_idle (h : (s.line n).retryTimer = none) : s.retrySecond n = s := by
  rw [State.retrySecond, h]

theorem retrySecond_counts {k : Nat} (h : (s.line n).retryTimer = some k) (hrun : 2 ≤ k) :
    (s.retrySecond n).line n = { s.line n with retryTimer := some (k - 1) } := by
  rw [State.retrySecond, h]
  dsimp only
  rw [if_neg (Nat.not_le.mpr hrun), setLine_line_self]

theorem retrySecond_due {k : Nat} (h : (s.line n).retryTimer = some k) (hdue : k ≤ 1)
    (hdown : (s.line n).engine = .down) (hoff : (s.line n).supplyOn = false) :
    (s.retrySecond n).line n = { s.line n with supplyOn := true, retryTimer := none, senseDue := true } := by
  have hretry : s.supplyRetry n =
      s.setLine n { s.line n with supplyOn := true, retryTimer := none, senseDue := true } :=
    if_pos (by rw [isDown_iff.mpr hdown, hoff]; rfl)
  rw [State.retrySecond, h]
  dsimp only
  rw [if_pos hdue, hretry, setLine_line_self]

/-- A line's own second of its retry timer, in the whole second. -/
theorem tick_retries (s : State) (n : LineId) :
    ∃ a : State, Served (s.line n) (a.line n) ∧ Served ((a.retrySecond n).line n) (s.tick.line n) := by
  obtain ⟨a, hbefore, hbehind⟩ := retried_at s n
  have hphase := linesServed_phaseSecond (retried s) n
  exact ⟨a, hbefore, ⟨hphase.sense.trans hbehind.sense, hphase.supply.trans hbehind.supply,
    hphase.retry.trans hbehind.retry, hphase.backlog.trans hbehind.backlog, hphase.down.trans hbehind.down⟩⟩

/-! ### The statement -/

theorem step_idle (h : s.pending = []) : step s = .next s.tick := by
  rw [step, h]

/-- Settles O2: the clock, a test with and without a loss due, Mains Sense, the retry timer. -/
theorem idleStepIsOneSecond : Obligations.IdleStepIsOneSecond := by
  intro s hpending hs
  obtain ⟨-, -, hseconds⟩ := retried_clock s
  refine ⟨s.tick, step_idle hpending, (tick_pending s).trans hpending, tick_counts, tick_minute, fun i u hu => ?_,
    fun n => ?_⟩
  · intro n lossDue remaining
    refine ⟨fun hloss hin => ?_, fun hloss hmore => ?_⟩
    · obtain ⟨hlast, htest⟩ := retried_lost hu hloss hin
      exact (phaseSecond_untested htest).trans hlast
    · obtain ⟨hstate, hlive⟩ := retried_testing hu hloss
      obtain ⟨htick, hpoll⟩ := phaseSecond_testing (n := n) (by rw [hseconds]; exact hs) hstate
        (by rw [hseconds]; exact hmore)
      rw [← tick_eq, hseconds, countedTest] at htick
      refine ⟨fun hrun => ?_, fun hdue => ⟨?_, hpoll (hlive hdue)⟩⟩
      · rw [if_neg (Nat.not_le.mpr hrun)] at htick
        exact htick
      · rw [if_pos hdue] at htick
        exact htick
  · obtain ⟨a, hmains, hsettings, hretried, hflags⟩ := tick_senses s n
    obtain ⟨b, hbefore, hbehind⟩ := tick_retries s n
    rw [tick_sense hs n, tick_holdOff hs n, hretried, ← hmains, ← hsettings, hbehind.retry, hbehind.supply,
      hbehind.sense, ← hbefore.retry]
    refine ⟨fun k hk => ⟨fun hrun => ?_, fun hdue => ?_⟩, fun k hk => ⟨fun hrun => ?_, fun hdue => ?_⟩, fun hstill => ?_,
      fun hnone => ?_, fun k hk => ⟨fun hrun => ?_, fun hdue hdown hoff => ?_⟩⟩
    · rw [mainsSecond_loss hk hrun, setMains_mainsLine_self]
    · rw [mainsSecond_lossDue hk hdue] at hflags ⊢
      obtain ⟨hsense, hflag⟩ := debouncedLoss_senses hk
      exact ⟨hsense, hflags _ hflag⟩
    · rw [mainsSecond_restore hk hrun, setMains_mainsLine_self]
    · rw [mainsSecond_restoreDue hk hdue] at hflags ⊢
      obtain ⟨hsense, hholdOff, hflag⟩ := debouncedRestore_senses hk
      exact ⟨hsense, hflags _ hflag, by rw [hholdOff]⟩
    · rw [mainsSecond_still hstill]
    · rw [retrySecond_idle hnone]
      exact hnone
    · rw [retrySecond_counts hk hrun]
    · rw [retrySecond_due hk hdue (hbefore.down.mpr hdown) (hbefore.supply.trans hoff)]
      exact ⟨rfl, rfl, rfl⟩

end Sys2Proof.Seconds
end
